-- ==== Sys2Proof/Word.lean ====
section
/-! DEFINITION. The word types of the module and the plainest things said about them. -/

namespace Sys2Proof

/-- A byte (00 R6). -/
abbrev Byte := BitVec 8

/-- A run of bytes, lowest address first (00 R6). -/
abbrev Bytes := List (BitVec 8)

/-- Memory contents listed by address (Host.Cell pairs); what is not listed is zero. -/
abbrev Cells := List (Nat × BitVec 8)

end Sys2Proof
end

