-- ==== Sys2Proof/Syntax.lean ====
section
/-! DEFINITION. The commands of the module: one constructor for each row of spec/opcode_table.json, with the
plain data a command carries. A row names the unit that acts; what comes from outside the module (a frame, a byte
written, a sensor reading) is an operand. -/

namespace Sys2Proof

/-- Where a register write goes: BAR0 of an attachment (02) or the I3C sideband (19 R642). -/
inductive Bus where
  | bar0 (att : Nat)
  | i3c
  deriving DecidableEq, Repr

/-- What the line code finds in an HBM line that nothing has read since it went bad (10 R325). -/
inductive LineFinding where
  | same
  | symbol (i : Nat)
  | uncorrectable
  deriving DecidableEq, Repr

/-- A fault of a matrix core's array during one K-group: `err` added to the window sum of an element, or a wrong result of
one of the two rounding units (05 R190, R191). -/
inductive ArrayFault where
  | sum (row col : Nat) (err : Int)
  | round (row col : Nat)
  deriving DecidableEq, Repr

/-- What the SEC-DED code finds in an SRAM word (10 R330). -/
inductive WordFinding where
  | same
  | single
  | double
  deriving DecidableEq, Repr

/-- What a governor loop reads of a tile (03 R92 to R100). -/
structure Sensors where
  /-- Smallest sentinel slack, in 0.25 % (R92). -/
  slack : Nat
  /-- Lowest rail with a smallest slack of 8.00 %, in mV (R93). -/
  floorMv : Nat
  /-- Hottest junction sensor, in 0.1 C (R97). -/
  tj : Int
  /-- Core-rail current in mA (R98). -/
  currentMa : Nat
  /-- 1 ms average of module input power, in mW (R98, R99). -/
  inputMw : Nat
  /-- 54 V input in mV. -/
  inputMv : Nat
  /-- Tile core-rail power in mW. -/
  powerMw : Nat
  /-- Measured beat rate in M beats/s at each 5 mV step from 550 to 850 mV (R106). -/
  beat : List Nat
  /-- V_RATED in mV that the slack at the present rail and temperature gives (03 ageing); a measurement held back takes it. -/
  vRated : Nat
  deriving DecidableEq, Repr

/-- A fabric packet (11 R378): the header's fields and the payload. `a` is bytes 16 to 21, `j` bytes 24 to 31. -/
structure Pkt where
  ty : Nat
  vc : Nat
  dclass : Bool
  phase : Bool
  resync : Bool
  /-- Bits [7:6] of FLAGS. -/
  flagRsv : Nat
  len : Nat
  dest : Nat
  src : Nat
  inter : Nat
  eseq : BitVec 16
  tag : Nat
  code : Nat
  ttl : Nat
  a : BitVec 48
  route : BitVec 8
  b23 : BitVec 8
  j : BitVec 64
  payload : List (BitVec 8)
  /-- No field of the packet: the port and the receive class whose slots it still occupies here (R360). -/
  held : Option (Nat × Nat)
  deriving DecidableEq, Repr

/-- What a response timeout is about (11 R406): a remote request, by its tag, or the acknowledgements of a collective
(12 R464), by its number. -/
inductive Awaited where
  | request (tag : Nat)
  | collective (rid : Nat)
  deriving DecidableEq, Repr

/-- A link frame as the sender keeps it (11 R355, R358): its number, the credits it returns, its link message and its
valid slots with their tags. -/
structure Frame where
  seq : BitVec 32
  credits : List Nat
  lmsg : List (BitVec 8)
  slots : List (BitVec 8 × List (BitVec 8))
  deriving DecidableEq, Repr

/-- The commands. -/
inductive Instr where
  /-- STATUS (R50): Command that returns the bring-up state, reset cause, bound tenants, self-test failure bits and time since reset. -/
  | statusCmd (att ring : Nat)
  /-- IDENTIFY (R1): Command that returns vendor, product and revision codes, module ID, slot ID, attachment index and serial number. -/
  | identify (att ring : Nat)
  /-- ATTACH (R51): Command that binds a new or resumed tenant to the attachment, issues a new session ticket and signals pending vectors. -/
  | attach (att ring : Nat)
  /-- DETACH (R56): Command that unbinds the tenant and either keeps its jobs running with a new ticket or stops them and releases the tenant. -/
  | detach (att ring : Nat)
  /-- ATTEST (R632): Command that writes signed evidence of the running measurements, or the certificate chain, to the partition. -/
  | attest (att ring : Nat)
  /-- TELEMETRY_READ (R114): Command that copies the telemetry page once, starts periodic copies or stops them. -/
  | telemetryRead (att ring : Nat)
  /-- PLAN_LOAD (R63): Command that checks a plan image, relocates it in place to the tenant's tiles and returns a plan handle. -/
  | planLoad (att ring : Nat)
  /-- JOB_START (R65): Command that checks and starts a job, installs its windows and creates its step group. -/
  | jobStart (att ring : Nat)
  /-- JOB_PAUSE (R68): Command that pauses every member of a job at the close of the step after the open one. -/
  | jobPause (att ring : Nat)
  /-- JOB_RESUME (R67): Command that resumes a paused job on every member. -/
  | jobResume (att ring : Nat)
  /-- JOB_STOP (R69): Command that stops a job on every member under the stop rule. -/
  | jobStop (att ring : Nat)
  /-- STEP_RUN (R66): Command that runs a stepped job for a given number of steps and then pauses it. -/
  | stepRun (att ring : Nat)
  /-- KERNEL_LAUNCH (R257): Command that checks a kernel image and loads its programs, arguments, tokens and control registers on the named tiles. -/
  | kernelLaunch (att ring : Nat)
  /-- MOVE (R656): Command that runs a list of the tenant's mover descriptors on a command channel. -/
  | moveCmd (att ring : Nat)
  /-- FILL (R656): Command that fills a range with a pattern through one or two generated descriptors. -/
  | fillCmd (att ring : Nat)
  /-- COMPARE (R656): Command that compares two ranges and returns the mismatch count and first differing offset. -/
  | compareCmd (att ring : Nat)
  /-- FENCE (R36): Command that replies once every earlier command of its ring has completed and its writes are visible. -/
  | fenceCmd (att ring : Nat)
  /-- CHANNEL_ENABLE (R82): Command that enables a mover channel and sets the MSI-X vector its events are forwarded to. -/
  | channelEnable (att ring : Nat)
  /-- CHANNEL_DISABLE (R83): Command that stops a mover channel under the stop rule. -/
  | channelDisable (att ring : Nat)
  /-- GROUP_CREATE (R423): Command that checks a group, announces its digest to every member and replies when all announcements match. -/
  | groupCreate (att ring : Nat)
  /-- GROUP_DESTROY (R424): Command that removes a group from the issuing module once its outstanding instances have ended. -/
  | groupDestroy (att ring : Nat)
  /-- COLLECTIVE (R426): Command that issues one collective operation instance over a group. -/
  | collective (att ring : Nat)
  /-- RESHARD (R459): Command that runs a PERMUTE between two regions and releases the source region when it completes. -/
  | reshard (att ring : Nat)
  /-- STREAM_OPEN (R481): Command that opens a decode or encode stream with its frame buffers, record ring and parameters. -/
  | streamOpen (att ring : Nat)
  /-- STREAM_CLOSE (R485): Command that closes a stream by draining it or stopping it under the stop rule. -/
  | streamClose (att ring : Nat)
  /-- STREAM_FEED (R482): Command that checks and applies a list of feed entries to a stream. -/
  | streamFeed (att ring : Nat)
  /-- STREAM_PRIORITY (R507): Command that changes the priority class of a stream's pictures not yet started. -/
  | streamPriority (att ring : Nat)
  /-- PIPE_CONFIGURE (R512): Command that configures the tenant's input pipeline and resets its data position. -/
  | pipeConfigure (att ring : Nat)
  /-- PIPE_START (R525): Command that starts the input pipeline from the first batch after the last complete one. -/
  | pipeStart (att ring : Nat)
  /-- PIPE_STOP (R526): Command that stops the input pipeline and empties its incomplete batches. -/
  | pipeStop (att ring : Nat)
  /-- PIPE_SEEK (R528): Command that sets the data position, empties every batch buffer and reports any counter mismatch. -/
  | pipeSeek (att ring : Nat)
  /-- CKPT_TAKE (R566): Command that takes a checkpoint of a job's image on every member into the named tiers. -/
  | ckptTake (att ring : Nat)
  /-- CKPT_RESTORE (R578): Command that restores a failed job's state into a new paused job from the nearest whole copy. -/
  | ckptRestore (att ring : Nat)
  /-- CKPT_POLICY (R572): Command that sets the module's checkpoint trigger and shared-store policy. -/
  | ckptPolicy (att ring : Nat)
  /-- GUARD_GROUP_SET (R559): Command that sets the guard size K of a job on every member from a later step close. -/
  | guardGroupSet (att ring : Nat)
  /-- POWER_CAP (R101): Command that sets the module power cap requested by a tenant holding all eight tiles. -/
  | powerCap (att ring : Nat)
  /-- OPERATING_POLICY (R102): Command that sets a voltage or beat-rate target and extra margin for the tenant's tiles. -/
  | operatingPolicy (att ring : Nat)
  /-- DOMAIN_POWER (R594): Command that switches named power domains on or off in dependency order. -/
  | domainPower (att ring : Nat)
  /-- SLEEP (R596): Command that releases the tenant, powers down all but D0 and D1 and puts the links to sleep. -/
  | sleepCmd (att ring : Nat)
  /-- WAKE (R598): Command that sends a WAKE control packet to a named module. -/
  | wakeCmd (att ring : Nat)
  /-- BLOCK_RESET (R611): Command that idles, stops and resets one block of a tile or the hub. -/
  | blockReset (att ring : Nat)
  /-- MODULE_RESET (R613): Command that resets the issuing module at reach B or sends a reset request to a peer. -/
  | moduleReset (att ring : Nat)
  /-- SCRUB_POLICY (R614): Command that sets the HBM patrol pass interval of named memory groups. -/
  | scrubPolicy (att ring : Nat)
  /-- FW_STAGE (R628): Command that verifies a signed object and writes it into the copy that is not running. -/
  | fwStage (att ring : Nat)
  /-- FW_ACTIVATE (R629): Command that sets a trial copy, cancels a trial or commits the running copy's SVN. -/
  | fwActivate (att ring : Nat)
  /-- KEY_MANIFEST (R626): Command that verifies and activates a new key manifest. -/
  | keyManifest (att ring : Nat)
  /-- KV_CREATE (R540): Command that creates a KV cache with its table area and frame pool. -/
  | kvCreate (att ring : Nat)
  /-- KV_APPEND (R541): Command that appends positions from a staging tensor to a sequence, allocating frames. -/
  | kvAppend (att ring : Nat)
  /-- KV_RELEASE (R542): Command that frees or truncates a sequence, or destroys the cache. -/
  | kvRelease (att ring : Nat)
  /-- ROLLOUT_STEP (R549): Command that locks sequences, runs one serving step generating positions and rendered pictures, and unlocks them. -/
  | rolloutStep (att ring : Nat)
  /-- BAD_OPCODE (R49): A packet with an unassigned opcode is completed with BAD_OPCODE and no other effect. -/
  | badOpcode (att ring : Nat)
  /-- DOORBELL_WRITE (R38): Write of a new tail that makes the ring consume slots, or is ignored with BAD_TAIL. -/
  | doorbellWrite (att ring : Nat) (tail : BitVec 32)
  /-- DOORBELL_READ (R34): Read of DOORBELL that returns only after every earlier posted write of the attachment has landed. -/
  | doorbellRead (att ring : Nat)
  /-- ATT_FENCE_READ (R47): Read that discards the attachment's read-prefetch buffers and returns the fence count. -/
  | attFenceRead (att : Nat)
  /-- RING_ENABLE (R40): Setting ENABLE of a ring, refused with BASE_DENIED when a base is outside the partition. -/
  | ringEnable (att ring : Nat) (log2 : BitVec 4)
  /-- RING_DISABLE (R41): Clearing ENABLE of a ring, which takes no further slot while commands in flight complete. -/
  | ringDisable (att ring : Nat) (log2 : BitVec 4)
  /-- REGISTER_WRITE (R11): Write to a register that has no row of its own, acting by its access codes. -/
  | registerWrite (bus : Bus) (offset : Nat) (value : BitVec 64)
  /-- BAR2_READ (R29): PCIe read through BAR2 of the bound tenant's HBM. -/
  | bar2Read (att off len : Nat) (stale : Bool)
  /-- BAR2_WRITE (R29): PCIe write through BAR2 into the bound tenant's HBM. -/
  | bar2Write (att off : Nat) (data : List (BitVec 8))
  /-- REPLY_TIMEOUT (R44): TIMEOUT_MS elapses before the command completes and the reply is written with TIMEOUT. -/
  | replyTimeout (uid : Nat)
  /-- ATTACHMENT_RESET (R57): Link-down or hot reset of an attachment unbinds its tenant and starts the orphan hold. -/
  | attachmentReset (att : Nat)
  /-- ORPHAN_WARN (R58): The orphan hold comes within 60 s of expiry and ATT_STATUS.ORPHAN_WARN is set. -/
  | orphanWarn (tenant : Nat)
  /-- ORPHAN_HOLD_EXPIRY (R58): An unbound tenant's orphan hold expires and its jobs are stopped and the tenant released. -/
  | orphanHoldExpiry (tenant : Nat)
  /-- TENANT_CLEAR_DONE (R59): Zeroing of a released tile's or channel's memories finishes so it can be granted again. -/
  | tenantClearDone (hub : Bool) (index : Nat)
  /-- STEP_OPEN (R27): A step opens once its batch is complete and the previous step has closed. -/
  | stepOpen (job : Nat)
  /-- STEP_ENTRY_START (R64): A step-program entry starts once lower entries have started and its waited entries completed. -/
  | stepEntryStart (job : Nat)
  /-- SKIP_COUNT_SUM (R450): After the reduction phase the module sums the non-finite step count over the step group and sets SKIP when nonzero. -/
  | skipCountSum (job : Nat)
  /-- STEP_WORK_END (R64): The step program reaches END with every entry complete; the state record is written and parity sent. -/
  | stepWorkEnd (job : Nat)
  /-- BUNDLE_DISPATCH (R233): An issue path dispatches a bundle once every non-NOP slot has room in its unit queue. -/
  | bundleDispatch (t p : Nat)
  /-- NOP (R237): Slot opcode 0 that does nothing. -/
  | nop
  /-- SIGNAL (R243): Control instruction that adds 1 to a token counter once the named units' earlier instructions complete. -/
  | signalTok (t p : Nat)
  /-- TOKEN_COUNT_ADD (R243): A pending token addition takes effect when the instructions it covers have completed and their writes are visible. -/
  | tokenCountAdd (t p : Nat)
  /-- REMOTE_SIGNAL (R246): A token signal for a counter on another tile takes effect after the writes it covers have landed there. -/
  | remoteSignal
  /-- WAIT (R244): Control instruction that holds dispatch until the counter reaches N and then subtracts N. -/
  | waitTok (t p : Nat)
  /-- LOOP (R238): Control instruction that repeats a body of bundles a counted number of times. -/
  | loop (t p : Nat)
  /-- BNZ (R238): Control instruction that jumps when a control register is nonzero. -/
  | bnz (t p : Nat)
  /-- SETC (R658): Control instruction that sets a control register to an immediate. -/
  | setc (t p : Nat)
  /-- ADDC (R658): Control instruction that adds a signed immediate to a control register. -/
  | addc (t p : Nat)
  /-- LDC (R658): Control instruction that loads a control register from the cistern. -/
  | ldc (t p : Nat)
  /-- STC (R658): Control instruction that stores a control register to the cistern. -/
  | stc (t p : Nat)
  /-- END (R259): Control instruction that ends a pair's program. -/
  | endProg (t p : Nat)
  /-- MMA (R168): Matrix instruction that adds the dot products of two operand panels over a K range into a slot. -/
  | mma (t p : Nat)
  /-- K_GROUP (R192): The array completes one K-group, checks it and rounds it into the slot, or re-executes it on a mismatch. -/
  | kGroup (t p : Nat) (faults : List ArrayFault)
  /-- ODSET_A (R239): Matrix instruction that writes an operand descriptor's base, lines, layout and stride. -/
  | odsetA (t p : Nat)
  /-- ODSET_S (R165): Matrix instruction that writes an operand descriptor's scale base and stride. -/
  | odsetS (t p : Nat)
  /-- SLOTCTX (R170): Matrix instruction that writes a slot's context from a slot context record. -/
  | slotctx (t p : Nat)
  /-- SLOT_CLEAR (R177): Matrix instruction that sets every element of a slot to +0. -/
  | slotClear (t p : Nat)
  /-- SLOT_LOAD (R174): Matrix instruction that loads H32 or S16 data into a region of a slot exactly. -/
  | slotLoad (t p : Nat)
  /-- SLOT_STORE (R177): Matrix instruction that writes the raw H32 bits of a slot region. -/
  | slotStore (t p : Nat)
  /-- DRAIN (R181): Matrix instruction that converts and writes a slot, optionally with row statistics, and clears it. -/
  | drain (t p : Nat)
  /-- DRAIN_ADD (R187): Matrix instruction that adds a higher-index partial into the slot's values as it drains. -/
  | drainAdd (t p : Nat)
  /-- SLOT_GIVE (R175): Matrix instruction that passes a slot to the paired vector engine. -/
  | slotGive (t p : Nat)
  /-- SLOT_TAKE (R176): Matrix instruction that waits until the vector engine returns a slot. -/
  | slotTake (t p : Nat)
  /-- MSTAT (R195): Matrix instruction that writes the core's fault record to the cistern. -/
  | mstat (t p : Nat)
  /-- ADD (R160): Vector addition, correctly rounded. -/
  | vadd (t p : Nat)
  /-- SUB (R160): Vector subtraction, correctly rounded. -/
  | vsub (t p : Nat)
  /-- MUL (R160): Vector multiplication, correctly rounded. -/
  | vmul (t p : Nat)
  /-- FMA (R160): Vector fused multiply-add with one rounding. -/
  | vfma (t p : Nat)
  /-- FMS (R209): Vector fused multiply-subtract with one rounding. -/
  | vfms (t p : Nat)
  /-- MIN (R210): Vector minimum with canonical NaN. -/
  | vmin (t p : Nat)
  /-- MAX (R210): Vector maximum with canonical NaN. -/
  | vmax (t p : Nat)
  /-- ABS (R212): Vector absolute value by sign bit. -/
  | vabs (t p : Nat)
  /-- NEG (R212): Vector negation by sign bit. -/
  | vneg (t p : Nat)
  /-- COPYSIGN (R212): Vector copy of a sign. -/
  | copysign (t p : Nat)
  /-- MOV (R212): Vector copy of a source. -/
  | vmov (t p : Nat)
  /-- CMPEQ (R211): Vector equality compare into a mask tile. -/
  | cmpeq (t p : Nat)
  /-- CMPNE (R211): Vector inequality compare into a mask tile. -/
  | cmpne (t p : Nat)
  /-- CMPLT (R211): Vector less-than compare into a mask tile. -/
  | cmplt (t p : Nat)
  /-- CMPLE (R211): Vector less-or-equal compare into a mask tile. -/
  | cmple (t p : Nat)
  /-- CMPUN (R211): Vector unordered compare into a mask tile. -/
  | cmpun (t p : Nat)
  /-- SEL (R212): Vector select of two sources under a select mask. -/
  | sel (t p : Nat)
  /-- MAND (R205): Mask AND of two mask tiles. -/
  | mand (t p : Nat)
  /-- MOR (R205): Mask OR of two mask tiles. -/
  | mor (t p : Nat)
  /-- MXOR (R205): Mask XOR of two mask tiles. -/
  | mxor (t p : Nat)
  /-- MNOT (R205): Mask NOT of a mask tile. -/
  | mnot (t p : Nat)
  /-- RSUM (R213): Row sum in a fixed binary tree into column 0. -/
  | rsum (t p : Nat)
  /-- RMAX (R213): Row maximum in a fixed binary tree into column 0. -/
  | rmax (t p : Nat)
  /-- EXP2 (R214): Correctly rounded base-2 exponential. -/
  | exp2 (t p : Nat)
  /-- LOG2 (R214): Correctly rounded base-2 logarithm. -/
  | log2 (t p : Nat)
  /-- RCP (R214): Correctly rounded reciprocal. -/
  | rcp (t p : Nat)
  /-- RSQRT (R214): Correctly rounded reciprocal square root. -/
  | rsqrt (t p : Nat)
  /-- SINT (R215): Correctly rounded sine of an argument in turns. -/
  | sint (t p : Nat)
  /-- COST (R215): Correctly rounded cosine of an argument in turns. -/
  | cost (t p : Nat)
  /-- CVT (R222): Conversion between H32 and packed S16 registers. -/
  | cvt (t p : Nat)
  /-- VLD (R219): Load of a register from basin or cistern. -/
  | vld (t p : Nat)
  /-- VST (R219): Store of a register to basin or cistern. -/
  | vst (t p : Nat)
  /-- VLDB (R221): Load of block-format data widened exactly into a register. -/
  | vldb (t p : Nat)
  /-- VSTB (R222): Store of a register as block-format data with scales and a scale record. -/
  | vstb (t p : Nat)
  /-- SLD (R224): Load of a 16 by 32 region of a held slot into a register. -/
  | sld (t p : Nat)
  /-- SST (R224): Store of a register into a region of a held slot. -/
  | sst (t p : Nat)
  /-- SLOT_RETURN (R224): Return of a slot from the vector engine to the matrix core. -/
  | slotReturn (t p : Nat)
  /-- SETLEN (R202): Setting of LROWS and LCOLS. -/
  | setlen (t p : Nat)
  /-- FGET (R218): Copy of FLAGS into a scalar register. -/
  | fget (t p : Nat)
  /-- FCLR (R218): Clearing of FLAGS. -/
  | fclr (t p : Nat)
  /-- LDS (R658): Load of a scalar register from basin or cistern. -/
  | lds (t p : Nat)
  /-- STS (R658): Store of a scalar register to basin or cistern. -/
  | sts (t p : Nat)
  /-- VCTX (R223): Write of the vector context used for stochastic rounding keys. -/
  | vctx (t p : Nat)
  /-- UPDATE (R226): Optimizer pass over one stripe of training state that writes the newer buffer and a ledger partial. -/
  | update (t p : Nat)
  /-- LEDGER_FOLD (R230): When all partials of a layer are present, TC folds them into the module ledger entry. -/
  | ledgerFold (t : Nat)
  /-- MOVD (R242): Move instruction that runs consecutive mover descriptors from the cistern. -/
  | movd (t p : Nat)
  /-- XEXP (R263): Move instruction that runs expansion commands on the tile's XU. -/
  | xexp (t p : Nat)
  /-- SPILL (R292): Move instruction that runs tensor descriptors on the spillway engine. -/
  | spill (t p : Nat)
  /-- KERNEL_END (R259): A kernel ends when every path has dispatched END and every write is acknowledged, or on a fault. -/
  | kernelEnd (kid : Nat)
  /-- DEADLOCK (R260): A kernel stall lasts t_stall and the kernel ends with DEADLOCK. -/
  | deadlock (kid : Nat)
  /-- RUN_LIMIT (R259): A kernel's run limit expires and the kernel ends early. -/
  | runLimit (kid : Nat)
  /-- COPY (R74): Mover descriptor that copies bytes in iteration order. -/
  | copy (mv ch : Nat)
  /-- FILL_DESCRIPTOR (R75): Mover descriptor that writes a repeated pattern. -/
  | fillDescriptor (mv ch : Nat)
  /-- COMPARE_DESCRIPTOR (R74): Mover descriptor that compares two ranges and counts mismatches. -/
  | compareDescriptor (mv ch : Nat)
  /-- GATHER (R655): Mover descriptor that copies indexed elements in index-list order. -/
  | gather (mv ch : Nat)
  /-- BURST_ISSUE (R79): A mover issues the next burst chosen by strict priority and round-robin between channels. -/
  | burstIssue (mv : Nat)
  /-- DESCRIPTOR_COMPLETE (R80): A descriptor's last write is acknowledged and its write-back and channel event follow. -/
  | descriptorComplete (mv ch : Nat)
  /-- EXPAND (R270): Expansion command that copies convolution windows into an expanded buffer. -/
  | expand (t : Nat)
  /-- FOLD (R275): Expansion command that folds an expanded gradient back onto the image grid. -/
  | foldGrad (t : Nat)
  /-- POOL_MAX (R279): Expansion command that max-pools windows, optionally with indices. -/
  | poolMax (t : Nat)
  /-- POOL_AVG (R280): Expansion command that average-pools windows. -/
  | poolAvg (t : Nat)
  /-- POOL_GRAD (R281): Expansion command that spreads pooling gradients back onto the image. -/
  | poolGrad (t : Nat)
  /-- CROP_RESIZE (R282): Expansion command that crops and bilinearly resizes a list of boxes. -/
  | cropResize (t : Nat)
  /-- EXPANSION_COMPLETE (R287): An expansion command's last write is acknowledged and its status and OWN are written. -/
  | expansionComplete (t : Nat)
  /-- SAVE (R304): Tensor descriptor that codes a tensor into a stream losslessly or within a bound. -/
  | saveStream (t : Nat)
  /-- RESTORE (R306): Tensor descriptor that decodes rows of a stream into a destination. -/
  | restoreStream (t : Nat)
  /-- ROUNDTRIP (R302): Tensor descriptor that writes what a bounded save and restore would write. -/
  | roundtrip (t : Nat)
  /-- SPILLWAY_COMPLETE (R312): A tensor descriptor's last write is acknowledged and its write-back fields and OWN are written. -/
  | spillwayComplete (t : Nat)
  /-- GOVERNOR_LOOP (R106): Each loop period the governor reads sentinels and limits and moves each tile's rail one step toward its applied value. -/
  | governorLoop (t : Nat) (sense : Sensors)
  /-- SLACK_EMERGENCY (R96): A sentinel reports slack below 4 % and the tile's issue stops and its rail rises four steps. -/
  | slackEmergency (t : Nat)
  /-- FLOOR_HOLD_EXPIRY (R96): The one-hour raised sentinel floor after an emergency expires. -/
  | floorHoldExpiry (t : Nat)
  /-- FLOOR_MEASURE (R94): After t_floor at 0.75 V the tile's first margin floor is set and it may issue. -/
  | floorMeasure (t floorMv : Nat)
  /-- AGEING_MEASUREMENT (R111): Hourly derivation of V_RATED, ledger entry and recomputation of the ageing guard. -/
  | ageingMeasurement (vRated : List Nat) (readable : Bool)
  /-- TELEMETRY_PUBLISH (R114): Every 100 ms the grotto publishes the telemetry page and periodic copies are made. -/
  | telemetryPublish
  /-- PATROL_SCRUB_LINE (R331): The patrol scrub reads, corrects or poisons one HBM line indivisibly. -/
  | patrolScrubLine (g : Nat) (fresh : LineFinding) (onDie : Nat)
  /-- SRAM_SCRUB (R330): The SRAM scrub reads and corrects a word of basins, accumulators or cisterns. -/
  | sramScrub (word : Nat) (fresh : WordFinding)
  /-- HEALTH_RECORD_REWRITE (R337): A memory or reservoir health record is rewritten after a field change, at most once per 100 ms. -/
  | healthRecordRewrite (which : Nat)
  /-- MEMORY_GROUP_READY (R338): Initialisation of a memory group finishes and waiting accesses proceed. -/
  | memoryGroupReady (g : Nat)
  /-- FRAME (R357): A link frame arrives and is checked, accepted or discarded with NAK. Bit i of `bad`: codeword
  i cannot be corrected. -/
  | linkFrame (port : Nat) (data : List (BitVec 8)) (bad : BitVec 16)
  /-- IDENT (R364): Link management message reporting the partner's ID, generation and fabric digest. -/
  | identMsg (port : Nat)
  /-- MAP (R415): Link management message carrying fabric map entries, merged by generation. -/
  | mapMsg (port : Nat)
  /-- WIDTH (R366): Link management message requesting a lane width. -/
  | widthMsg (port : Nat)
  /-- TXEQ (R362): Link management message asking the partner to step a transmitter setting on a lane. -/
  | txeqMsg (port : Nat)
  /-- LINK_SIGNAL_DETECT (R363): Signal appears on a port and link training begins. -/
  | linkSignalDetect (port : Nat)
  /-- LINK_TRAINED (R363): Link training completes with a lane set, or fails and the port goes DOWN. Bit i of
  `lanes`: lane i trains at both ends. -/
  | linkTrained (port : Nat) (lanes : BitVec 16)
  /-- LINK_SIGNAL_LOSS (R411): A port loses signal and retrains, resending unacknowledged frames to the new partner. -/
  | linkSignalLoss (port : Nat)
  /-- OPTICAL_CALIBRATION (R362): Every 10 min a port's lanes are tuned one at a time. One count of
  100 ms has ended with `count` symbols. -/
  | opticalCalibration (port count : Nat)
  /-- PACKET_FORWARD (R372): A router forwards, delivers or discards a packet received from a link. -/
  | packetForward (port : Nat)
  /-- ROUTE_RECOMPUTE (R418): Within t_map of a map change the module recomputes its routes. -/
  | routeRecompute
  /-- MODULE_ID_FIX (R350): The module ID is fixed once the fabric section is loaded and FABRIC_ORIGIN is valid. -/
  | moduleIdFix
  /-- SLUICE_OPEN (R409): The three sluices open once all their conditions hold. -/
  | sluiceOpen
  /-- SLUICE_CLOSE (R409): The sluices close on power loss, D1 off or a reset of reach A. -/
  | sluiceClose
  /-- READ_REQ (R389): Remote read request admitted and answered at the destination. -/
  | readReq
  /-- WRITE_REQ (R389): Remote write request admitted and carried out at the destination. -/
  | writeReq
  /-- ATOMIC_REQ (R393): Remote atomic ADD, MIN, MAX or CAS carried out indivisibly at the destination. -/
  | atomicReq
  /-- READ_RSP (R399): Read response arrives with data and WGEN and completes the access. -/
  | readRsp
  /-- WRITE_ACK (R395): Write acknowledgement arrives and completes the remote write. -/
  | writeAck
  /-- ATOMIC_RSP (R392): Atomic response arrives and its old value is written to RESULT. -/
  | atomicRsp
  /-- PEER_FENCE (R401): Read of a peer's path fence register that waits for acknowledgements and invalidates buffered lines. -/
  | peerFence (peer : Nat)
  /-- GAP_TIMEOUT (R404): A missing packet of a triple has not arrived t_gap after a later one was held; BREAK is sent. -/
  | gapTimeout (src vc : Nat)
  /-- BREAK (R405): BREAK arrives and the source completes the triple's unanswered requests with MEMBER_LOST. -/
  | brk
  /-- RESPONSE_TIMEOUT (R406): A request has no response t_rsp after sending and completes with MEMBER_LOST. -/
  | responseTimeout (of : Awaited)
  /-- JOB_CONTROL (R67): Control packet carrying a pause, resume, stop, guard set or checkpoint action to a job member. -/
  | jobControl
  /-- CONTROL_RSP (R613): Response to a control request arrives with its status. -/
  | controlRsp
  /-- RESTORE_DONE (R581): A member announces completion of its restore actions. -/
  | restoreDone
  /-- GROUP_ANNOUNCE (R423): A member's group digest announcement arrives and is compared. -/
  | groupAnnounce
  /-- ARRIVE (R468): An ARRIVE reaches a step-group tree node and is forwarded or triggers RELEASE at rank 0. -/
  | arrive
  /-- RELEASE (R468): RELEASE reaches a member, which closes the step and applies the skip and checkpoint flags. -/
  | releaseStep
  /-- ABANDON (R464): ABANDON arrives and outstanding instances of its group end with MEMBER_LOST. -/
  | abandon
  /-- JOB_FAILED (R576): JOB_FAILED arrives and the member moves the job to FAILED. -/
  | jobFailed
  /-- HOLDINGS (R579): A member's holdings record of the old job arrives for restore step selection. -/
  | holdings
  /-- WAKE_CONTROL_PACKET (R597): A WAKE control packet from a module with the same digest arrives and the module leaves sleep. -/
  | wakeControlPacket
  /-- RESET_REQ (R613): A peer's reset request arrives and asserts PEER or is refused. -/
  | resetReq
  /-- CDATA (R443): Reduction data arrives at an adder or owner and is checked, added and forwarded or delivered. -/
  | cdata (upset : Bool)
  /-- GDATA (R443): Gather, broadcast, permute, rotate or exchange data arrives and is written. -/
  | gdata
  /-- CHECK_ACK (R444): Acknowledgement frees the oldest retained packet of a stream. -/
  | checkAck
  /-- RESEND_REQ (R445): Request to resend the oldest unacknowledged packet of a stream. -/
  | resendReq
  /-- LANDED (R458): Notice that a PERMUTE or RESHARD range is visible at its destination. -/
  | landed
  /-- INSTANCE_START (R460): A waiting collective instance starts once an outstanding slot on its channel frees. -/
  | collStart (vc : Nat)
  /-- COLLECTIVE_STALL (R462): An outstanding instance makes no progress for t_cstall and an event is raised. -/
  | collectiveStall (rid : Nat)
  /-- PDATA (R563): Parity data arrives and is XORed into the hosted generation. -/
  | pdata
  /-- CKPT_COMMIT (R568): A checkpoint copy to a tier finishes and its commit record is written. -/
  | ckptCommit (job tier : Nat) (writesOk : Bool)
  /-- CKPT_INTERVAL_RECOMPUTE (R575): Rank 0 recomputes the checkpoint interval every hour. -/
  | ckptIntervalRecompute (job : Nat)
  /-- STEP_TIMEOUT (R576): STEP_TIMEOUT_S passes while waiting for a step to close and the job fails. -/
  | stepTimeout (job : Nat)
  /-- PICTURE_START (R504): A free pipe takes the next ready picture by class and feed order. -/
  | pictureStart (encode : Bool)
  /-- PICTURE_COMPLETE (R484): A picture finishes and its data, access unit and record are written before OWN clears. -/
  | pictureComplete (encode : Bool) (pipe : Nat)
  /-- ROLLOUT_PICTURE (R552): A rendered rollout picture takes effect as a SOURCE feed once its buffer was free and its writes acknowledged. -/
  | rolloutPicture (uid : Nat) (i : Nat)
  /-- BATCH_FILL_START (R519): A batch buffer is released and the pipeline begins filling the next batch in it. -/
  | batchFillStart (tenant : Nat)
  /-- FETCH (R510): The fetch stage issues a sample request and reads header or body. -/
  | fetchSample (tenant : Nat) (pcie : Option (List (BitVec 8)))
  /-- ADMISSION (R513): The admission stage parses and checks a header region and allocates work space. -/
  | admission (tenant : Nat)
  /-- DECODE (R515): The decode stage decodes an admitted sample through the media engine. -/
  | decodeSample (tenant : Nat)
  /-- AUGMENT (R524): The augment stage selects frames and crops and resizes them into a clip tensor. -/
  | augment (tenant : Nat)
  /-- ASSEMBLE (R521): The assemble stage writes a slot and completes the batch when every slot is written. -/
  | assemble (tenant : Nat)
  /-- FETCH_RETRY (R516): A failed fetch read is retried every t_fretry. -/
  | fetchRetry (tenant : Nat) (pcie : Option (List (BitVec 8)))
  /-- PIPE_STATUS_REWRITE (R530): The pipeline status record is rewritten every 100 ms. -/
  | pipeStatusRewrite (tenant : Nat)
  /-- BLOCK_IDLE_TIMEOUT (R611): IDLE_MS of a block reset runs out and unfinished work is stopped. -/
  | blockIdleTimeout (uid : Nat)
  /-- POWER_ON (R600): The auxiliary input rises above V_AUX_OK and a reset of reach A begins. -/
  | powerOn
  /-- AUX_MAIN_TIMER (R587): V_AUX has been good for t_aux_main; POWER_ON releases and main converters may start. -/
  | auxMainTimer
  /-- MAIN_GOOD (R588): V_MAIN rises above V_MAIN_OK and the main converters start. -/
  | mainGood (mv : Nat)
  /-- POWER_FAIL (R589): V_MAIN leaves its range or PWR_GOOD goes low; issue stops and the reservoir flushes. -/
  | powerFail (mv : Nat)
  /-- HOLDUP_END (R589): t_holdup ends or a rail leaves regulation and a reset of reach A with MAIN_LOSS begins. -/
  | holdupEnd
  /-- MAIN_STABLE (R590): V_MAIN has been in range for t_main_stable and MAIN_LOSS releases. -/
  | mainStable
  /-- AUX_FAIL (R591): V_AUX falls below V_AUX_UV and every domain powers down, D0 included. -/
  | auxFail
  /-- RESET_PIN (R600): MODULE_RESET_N is low for at least 10 µs and a reset of reach A begins. -/
  | resetPin (low : Bool)
  /-- WATCHDOG (R600): The management watchdog is not serviced for t_wdog and a reset of reach A begins. -/
  | watchdog
  /-- THERMAL_TRIP (R600): A junction sensor reads 115 °C or more and a reset of reach B begins. -/
  | thermalTrip (t : Nat) (temp : Nat)
  /-- TRIP_HOLD_EXPIRY (R600): The trip hold ends and the THERMAL_TRIP source releases. -/
  | tripHoldExpiry
  /-- RESET_RELEASE (R606): Every source of the episode has released and the release sequence of the widest reach runs. -/
  | resetRelease (slot : BitVec 6) (ledger : Bool)
  /-- SELFTEST_COMPLETE (R50): Self-test finishes and the module reports READY or FAILED. -/
  | selftestComplete (bits : BitVec 64)
  /-- WAKE_N (R597): WAKE_N held low for 10 µs makes a sleeping module leave sleep. -/
  | wakeN
  /-- I3C_DYNAMIC_ADDRESS (R641): SETDASA or ENTDAA assigns the module a dynamic I3C address. -/
  | i3cDynamicAddress (addr : BitVec 7)
  /-- CARRIER_CAP (R101): Write of the carrier power cap, ignored and flagged REJECTED when out of range. -/
  | carrierCap (value : BitVec 32)
  /-- FABRIC_ORIGIN (R645): Write of the torus origin, which fixes the module ID and lets sluices open. -/
  | fabricOrigin (value : BitVec 32)
  /-- SB_WAKE (R597): SB_COMMAND WAKE written over I3C makes a sleeping module leave sleep. -/
  | sbWake
  /-- RECOVERY_START (R646): START verifies the recovery buffer as a stage-1 object and installs it. -/
  | recoveryStart
  /-- RECOVERY_VERIFIED (R646): Verification of the recovery buffer finishes; it is installed and boot continues, or it fails. -/
  | recoveryVerified
  /-- RECOVERY_CLEAR (R646): CLEAR discards the recovery buffer. -/
  | recoveryClear
  /-- RECOVERY_DATA (R646): Write of four bytes into the recovery buffer at RECOVERY_OFFSET, which then advances by 4. -/
  | recoveryData (value : BitVec 32)
  /-- ATTACHMENT_LINK_UP (R600): An attachment's PCIe link retrains after a link-down or hot reset, ending the reset of reach C so the attachment is live again and can take ATTACH. -/
  | attachmentLinkUp (att : Nat) (refclk : Bool)
  /-- STAGING_READY (R347): The reservoir controller finishes journal replay after start-up and waiting staging accesses proceed. -/
  | stagingReady
  /-- RESERVOIR_WEAR_LEVELLING (R345): The reservoir controller's continuous wear levelling and read-disturb refresh relocate blocks, count refreshes and use up spare blocks, recording RESERVOIR_WEAR at 10 % and making the reservoir read-only at zero. -/
  | reservoirWearLevelling (sparePct nandBytes refreshes : Nat)
  deriving DecidableEq, Repr

end Sys2Proof
end

