-- ==== Sys2Proof/Decode.lean ====
section
/-! DEFINITION. Words that spell commands. The table gives no row bits: commands reach the module as packets, register
writes, frames and pins, so no word spells one (DESIGN CHOICE, log entry 5). -/

namespace Sys2Proof

/-- The command a word spells by the table's bits (DESIGN CHOICE, log entry 5). -/
def decodeTableWord (_nbits _w : Nat) : Option Instr := none

end Sys2Proof
end

