-- ==== Sys2Proof/Config.lean ====
section
/-! DEFINITION. What an implementation fixes and what the spec leaves open: constants with no body, so that nothing can
be proved from a value of theirs. The notes/assumptions entry of each is named in its docstring. -/

namespace Sys2Proof.Config

/-- A fresh session ticket (02 R52 gives no value), by the draw's number. DESIGN CHOICE, log entry 6. -/
opaque ticket : Nat → BitVec 64

/-- Module serial number (02 IDENTIFY). DESIGN CHOICE, log entry 7. -/
opaque serial : BitVec 64

/-- What a read of an atomic port gives (11 R384 gives it no content), by draw and offset. DESIGN CHOICE, log entry 10. -/
opaque portByte : Nat → Nat → BitVec 8

/-- What a stream header that is INCOMPLETE holds in STREAM_BYTES and MAX_ERROR (09 R304 gives neither), by draw and
field. DESIGN CHOICE, log entry 11. -/
opaque headerHole : Nat → Nat → BitVec 64

/-- V_RATED_INITIAL of a tile in mV, written at manufacture (03). DESIGN CHOICE, log entry 12. -/
opaque vRatedInit : Nat → Nat

/-- Result words and other values that the spec leaves unstated (02 job commands; 13; 15), by the draw's number. DESIGN CHOICE,
log entry 14. -/
opaque freeWord : Nat → BitVec 64

/-- What a stochastic rounding of a rollout's kernel draws for: the rollout's entry (modulo their number), the position and
the draw index, by the rounding's K-group index, column, row and tensor id (15 R550 names the counter's words and not what
they are for a rounding). DESIGN CHOICE, log entry 122. -/
opaque rollPlace : Nat → Nat → Nat → Nat → Nat × Nat × Nat

/-- Number of a module's own receive equaliser settings on a lane (11 R362 names them and gives no number). DESIGN CHOICE, log
entry 72. -/
opaque rxSettings : Nat

/-- Bytes of the first `n` writes of the reservoir's ageing ledger and log region (10 names what it holds and no sizes). DESIGN
CHOICE, log entry 99. -/
opaque logBytes : Nat → Nat

/-- Bytes that a selection of a copy, or a counter, takes in the reservoir's configuration and counter regions (18 gives
neither). DESIGN CHOICE, log entry 99. -/
opaque recordBytes : Nat

/-! ### Boot, identity and attestation (18): objects, keys and signatures. DESIGN CHOICE, log entries 4 and 30. -/

/-- The fabric section of a configuration body and what stage 2 reads from it: its bytes, X_DIM, Y_DIM, Z_DIM, the slot
map, PCIE_SPLIT and PCIE_CLOCKING (11 R349; 19 R636, R637). The spec gives the body no layout. -/
structure FabricSection where
  bytes : List (BitVec 8)
  xdim : Nat
  ydim : Nat
  zdim : Nat
  slots : List (Nat × Nat × Nat)
  split : Nat
  clocking : Nat
  deriving DecidableEq, Repr, Inhabited

/-- Signed object in flash at manufacture, by type (1 stage 1, 2 stage 2, 3 configuration, 4 manifest) and copy; empty for
none (18). DESIGN CHOICE, log entry 4. -/
opaque factoryObject : Nat → Nat → List (BitVec 8)

/-- First 32 bytes of SHAKE256 of the vendor root key of a root slot (18). DESIGN CHOICE, log entry 30. -/
opaque rootSlot : Nat → List (BitVec 8)

/-- ML-DSA.Verify of FIPS 204: public key, message, context string, signature (18 R617). DESIGN CHOICE, log entry 30. -/
opaque mldsaVerify : List (BitVec 8) → List (BitVec 8) → List (BitVec 8) → List (BitVec 8) → Bool

/-- ML-DSA.KeyGen_internal of FIPS 204: the public and the private key of a seed (18 R631). DESIGN CHOICE, log entry 30. -/
opaque mldsaKeyGen : List (BitVec 8) → List (BitVec 8) × List (BitVec 8)

/-- Hedged ML-DSA.Sign: private key, draw, message, context string (18 R633). DESIGN CHOICE, log entry 30. -/
opaque mldsaSign : List (BitVec 8) → Nat → List (BitVec 8) → List (BitVec 8) → List (BitVec 8)

/-- The identity seed that the SRAM array and the helper data give, the same on every power-up (18 R630). DESIGN CHOICE, log
entry 30. -/
opaque identitySeed : List (BitVec 8)

/-- DER bytes of the device certificate and its chain (18 R631). DESIGN CHOICE, log entry 30. -/
opaque certificates : List (List (BitVec 8))

/-- Fabric section and PCIE_SPLIT of a configuration body. DESIGN CHOICE, log entry 30. -/
opaque fabricSection : List (BitVec 8) → FabricSection

/-! ### The media engine (13): decoding and coding outside the spec. DESIGN CHOICE, log entry 25. -/

/-- Profiles of the decode support table (13 R474). -/
inductive Profile where
  | h264High | hevcMain | hevcMain10 | av1Main | other
  deriving DecidableEq, Repr, Inhabited

/-- What the sequence header of a bitstream names: profile, whether its tier is Main, ten times the level, bit depth, chroma
format (0 for 4:0:0, 1 for 4:2:0, more for others), picture size, and the pictures of its reference store. -/
structure SeqHeader where
  profile : Profile
  mainTier : Bool
  level : Nat
  depth : Nat
  chroma : Nat
  width : Nat
  height : Nat
  store : Nat
  deriving DecidableEq, Repr, Inhabited

/-- Kinds of coded picture that 13 R490 tells apart: a key frame counts as `keyFrame` when a sequence header precedes it. -/
inductive Access where
  | idr | cra | bla | keyFrame | inner
  deriving DecidableEq, Repr, Inhabited

/-- One coded picture as the decoding process of its standard gives it: its sequence header and kind, whether it breaks
syntax or semantics in a way the engine detects, the pictures (by coding number) it depends on, its type, its planes and
motion data, the chunks that hold its first and last coded byte, the pictures in the reference store after it, and the
pictures output after it in order. -/
structure Picture where
  header : SeqHeader
  access : Access
  broken : Bool
  refs : List Nat
  ptype : Nat
  planes : List (BitVec 8)
  motion : List (BitVec 8)
  chunk : Nat
  lastChunk : Nat
  keep : List Nat
  outputs : List Nat
  deriving DecidableEq, Repr, Inhabited

/-- Picture of a coding number of a decode stream, from its parameters, the chunks fed (each with whether it could be
read; a picture lies at least in part in one that could not), whether no more come, and the coding number at which decoding
began last; none while the chunks do not hold it whole (13 R489 to R491). DESIGN CHOICE, log entry 25. -/
opaque nextPicture : List (BitVec 8) → List (List (BitVec 8) × Bool) → Bool → Nat → Nat → Option Picture

/-- Pictures that an END makes a decode stream output, in order, by the coding number at which decoding began last and the
number of pictures (13 R493). DESIGN CHOICE, log entry 25. -/
opaque lastPictures : List (BitVec 8) → List (List (BitVec 8) × Bool) → Nat → Nat → List Nat

/-- A coded block: its bits, its coded data, its reconstruction before in-loop filtering, and its motion data. -/
structure Block where
  bits : Nat
  data : List (BitVec 8)
  recon : List (BitVec 8)
  motion : List (BitVec 8)
  deriving DecidableEq, Repr, Inhabited

/-- What a block is coded from: stream parameters, source, reference, whether picture and block are intra, row, column, the
QPs of the rows up to it, and the blocks coded before it. -/
structure BlockIn where
  cfg : List (BitVec 8)
  src : List (BitVec 8)
  ref : List (BitVec 8)
  key : Bool
  intra : Bool
  row : Nat
  col : Nat
  qps : List Int
  before : List Block
  deriving DecidableEq, Repr

/-- A block of a picture, coded (13 R495). DESIGN CHOICE, log entry 25. -/
opaque codeBlock : BlockIn → Block

/-- The same block in fallback form: a skip with zero motion, or DC prediction with no residual (13 R502). DESIGN CHOICE, log
entry 25. -/
opaque fallbackBlock : BlockIn → Block

/-- Bytes of an access unit ahead of the coded picture, by stream parameters, whether it is a key picture, and the
pictures since the last one (13 R495). DESIGN CHOICE, log entry 25. -/
opaque unitHead : List (BitVec 8) → Bool → Nat → List (BitVec 8)

/-- HEVC recovery point SEI message with a recovery_poc_cnt (13 R500). DESIGN CHOICE, log entry 25. -/
opaque recoveryPoint : Nat → List (BitVec 8)

/-- Bytes of the coded picture of an access unit, from stream parameters, picture kind and count, row QPs and blocks
(13 R495). DESIGN CHOICE, log entry 25. -/
opaque unitBody : List (BitVec 8) → Bool → Nat → List Int → List Block → List (BitVec 8)

/-- Planes of the reference reconstruction of a coded picture: its blocks after in-loop filtering (13 R495). DESIGN CHOICE,
log entry 25. -/
opaque reconPlanes : List (BitVec 8) → List Int → List Block → List (BitVec 8)

/-- Bytes of an end-of-sequence unit (13 R497). DESIGN CHOICE, log entry 25. -/
opaque endUnit : Nat → List (BitVec 8)

/-- A quotient of the weir whose divisor is 0 (13 R501 does not state it), by the dividend. DESIGN CHOICE, log entry 25. -/
opaque weirQuotient : Int → Int

/-! ### The input pipeline (14): containers and streams outside the spec. DESIGN CHOICE, log entry 27. -/

/-- What the header region of a sample declares: its codec (1 H.264, 2 HEVC, 3 AV1, else another), its first sequence header,
and its frames where declared. -/
structure SampleHeader where
  codec : Nat
  seq : SeqHeader
  frames : Option Nat
  deriving DecidableEq, Repr, Inhabited

/-- The headers of a header region of a container, none where it does not parse or lacks them (14 R513). DESIGN CHOICE, log entry 27. -/
opaque sampleHeader : Nat → List (BitVec 8) → Option SampleHeader

/-- The elementary stream of an ISO base media file: its video track's units with the parameter sets ahead of the first
picture (14 manifest). DESIGN CHOICE, log entry 27. -/
opaque elementary : List (BitVec 8) → List (BitVec 8)

end Sys2Proof.Config
end

