-- ==== Sys2Proof/Machine/Sparse.lean ====
section
/-! DEFINITION. Sparse tables in one canonical form (keys strictly rising, no default value listed), byte strings in
little-endian order (00 R6), and lists indexed by number. -/

namespace Sys2Proof.Machine

/-- Value at key `j` of a sparse table whose unlisted keys hold `z`. -/
def sget {α : Type} (z : α) : List (Nat × α) → Nat → α
  | [], _ => z
  | (k, v) :: r, j => if k = j then v else sget z r j

/-- `vs` numbered from `k` on, without the default value. -/
def listed {α : Type} [DecidableEq α] (z : α) : Nat → List α → List (Nat × α)
  | _, [] => []
  | k, v :: r => if v = z then listed z (k + 1) r else (k, v) :: listed z (k + 1) r

/-- The table with `vs` at keys `k`, `k + 1`, ... -/
def sput {α : Type} [DecidableEq α] (z : α) (m : List (Nat × α)) (k : Nat) (vs : List α) : List (Nat × α) :=
  m.filter (fun e => e.1 < k) ++ (listed z k vs ++ m.filter (fun e => k + vs.length ≤ e.1))

/-- The table with `v` at key `k`. -/
def sset {α : Type} [DecidableEq α] (z : α) (m : List (Nat × α)) (k : Nat) (v : α) : List (Nat × α) :=
  sput z m k [v]

/-- The values at `n` keys from `k` on. -/
def sgets {α : Type} (z : α) (m : List (Nat × α)) (k n : Nat) : List α :=
  (List.range n).map fun i => sget z m (k + i)

/-- The table without the keys from `k` to `k + n - 1`. -/
def sclear {α : Type} (m : List (Nat × α)) (k n : Nat) : List (Nat × α) :=
  m.filter fun e => e.1 < k || k + n ≤ e.1

/-- Keys strictly rising from `lo` on, and no default value listed. -/
def swfFrom {α : Type} [DecidableEq α] (z : α) : Nat → List (Nat × α) → Bool
  | _, [] => true
  | lo, (k, v) :: r => decide (lo ≤ k) && decide (v ≠ z) && swfFrom z (k + 1) r

/-- The canonical form. -/
def swf {α : Type} [DecidableEq α] (z : α) (m : List (Nat × α)) : Bool := swfFrom z 0 m

/-- The number a little-endian byte string spells (00 R6). -/
def leNat : Bytes → Nat
  | [] => 0
  | b :: r => b.toNat + 256 * leNat r

/-- `n` bytes of a number, least significant first (00 R6). -/
def toLE : Nat → Nat → Bytes
  | 0, _ => []
  | n + 1, v => BitVec.ofNat 8 (v % 256) :: toLE n (v / 256)

/-- The field of `size` bytes at `off` of a byte string; bytes beyond its end count as zero. -/
def fld (bs : Bytes) (off size : Nat) : Nat := leNat ((bs.drop off).take size)

/-- The bytes of a field. -/
def fldBytes (bs : Bytes) (off size : Nat) : Bytes := (bs.drop off).take size

/-- Bits `[hi:lo]` of a number (00 R5). -/
def bits (v hi lo : Nat) : Nat := v / 2 ^ lo % 2 ^ (hi + 1 - lo)

/-- Bit `i` of a number. -/
def bitOf (v i : Nat) : Bool := v / 2 ^ i % 2 == 1

/-- Whether `size` bytes at `off` are all zero (00 R9). -/
def zeroAt (bs : Bytes) (off size : Nat) : Bool := (fldBytes bs off size).all (· == 0)

/-- `n` zero bytes. -/
def zeros (n : Nat) : Bytes := List.replicate n 0

/-- Bytes cut or padded with zeros to length `n`. -/
def padTo (n : Nat) (bs : Bytes) : Bytes := bs.take n ++ zeros (n - bs.length)

/-- Entry `i` of a list, changed by `f`; other entries stand. -/
def modAt {α : Type} : List α → Nat → (α → α) → List α
  | [], _, _ => []
  | x :: r, 0, f => f x :: r
  | x :: r, i + 1, f => x :: modAt r i f

/-- A number that does not pass `2^32 - 1` (00 saturating counts). -/
def sat32 (n : Nat) : Nat := min n 0xFFFFFFFF

/-- A number that does not pass `2^64 - 1`. -/
def sat64 (n : Nat) : Nat := min n 0xFFFFFFFFFFFFFFFF

/-- Division that rounds up. -/
def ceilDiv (a b : Nat) : Nat := (a + b - 1) / b

/-- Whether two ranges of bytes share a byte. -/
def overlaps (a la b lb : Nat) : Bool := decide (0 < la ∧ 0 < lb ∧ a < b + lb ∧ b < a + la)

/-- Whether a range lies inside another. -/
def inside (a la b lb : Nat) : Bool := decide (b ≤ a ∧ a + la ≤ b + lb)

/-- The numbers below `n` whose bit is set in a mask. -/
def maskList (n m : Nat) : List Nat := (List.range n).filter (bitOf m)

/-- Number of set bits among the first `n`. -/
def popCount (n m : Nat) : Nat := (maskList n m).length

end Sys2Proof.Machine
end

