-- ==== Sys2Proof/Machine/State.lean ====
section
/-! DEFINITION. The state of the module as plain data, the reasons a step can stop, and the state right after reset.
Each field's docstring gives its width, the file and rule of spec/ that names it, and its reset value. -/

namespace Sys2Proof.Machine

/-- The faults of a step. The spec gives every command an effect (a status, an event, a kernel fault record), so no
meaning stops the machine and this type has no constructor. Safe: nothing is proved from a stop that cannot come. -/
inductive Fault where
  deriving DecidableEq, Repr

/-- The refusals of a step. -/
inductive Refusal where
  /-- Raised by an arm of `exec` whose command has no meaning yet. Safe: the run stops. -/
  | notModelled (mnemonic : String)
  deriving DecidableEq, Repr

/-! ### Memory -/

/-- Error state of one 64-byte HBM line that is not clean (10 R325 to R328). -/
inductive LineErr where
  | symbol (i : Nat)
  | uncorrectable
  | poisoned
  deriving DecidableEq, Repr

/-- Error state of one 64-bit SRAM word that is not clean (10 R330). -/
inductive WordErr where
  | single
  | double
  deriving DecidableEq, Repr

/-! ### Attachments, rings and commands -/

/-- Where a reply goes: the bring-up window in hub memory, or a local HBM address (02 R39, R43). -/
inductive ReplyLoc where
  | hub (att slot : Nat)
  | hbm (addr : Nat)
  deriving DecidableEq, Repr

/-- A packet the module has taken from its slot and not yet started (02 R35). -/
structure Taken where
  /-- 32 bits. 02 R35 index of the slot. -/
  index : BitVec 32
  /-- 02 R43 where the reply goes. -/
  loc : ReplyLoc
  /-- 64 bytes. 02 packet as read when the slot was consumed. -/
  bytes : List (BitVec 8)
  /-- Model's own number of the command, given when the packet is taken. -/
  uid : Nat
  /-- 1 bit. 02 R44: the reply was already written with TIMEOUT. -/
  timedOut : Bool
  deriving DecidableEq, Repr

/-- One ring of an attachment (02 R32 to R41). -/
structure Ring where
  /-- 64 bits (52 of address). 02 RING_BASE. Reset 0. -/
  base : BitVec 64
  /-- 64 bits. 02 REPLY_BASE. Reset 0. -/
  replyBase : BitVec 64
  /-- 1 bit. 02 RING_CTRL.ENABLE, R40, R41. Reset 0. -/
  enable : Bool
  /-- 4 bits. 02 RING_CTRL.LOG2_SIZE. Reset 4. -/
  log2 : BitVec 4
  /-- 32 bits. 02 DOORBELL.TAIL, R38. Reset 0. -/
  tail : BitVec 32
  /-- 32 bits. 02 HEAD, R35. Reset 0. -/
  head : BitVec 32
  /-- 1 bit. 02 RING_STATUS.BAD_TAIL, R38. Reset 0. -/
  badTail : Bool
  /-- 1 bit. 02 RING_STATUS.OWN_STALL, R37. Reset 0. -/
  ownStall : Bool
  /-- 1 bit. 02 RING_STATUS.BASE_DENIED, R40. Reset 0. -/
  baseDenied : Bool
  /-- 1 bit. 02 R39: ring 0 uses the bring-up window. Reset 1. -/
  window : Bool
  /-- 02 R35: packets taken and not yet started, oldest first. Reset empty. -/
  taken : List Taken
  /-- 1 bit. 02 R37: consumption has stopped at a slot with OWN = 0. Reset 0. -/
  stalled : Bool
  deriving DecidableEq, Repr

/-- One PCIe attachment (02 R29 to R31, R57; 19 R636). -/
structure Attachment where
  /-- 1 bit. 17 R600, 02 R57: the link is up. Reset 0 (down until release). -/
  link : Bool
  /-- 8 bits. 02 ATT_INFO.TENANT: bound tenant id, 0 for none. Reset 0. -/
  tenant : Nat
  /-- 32 bits. 02 ATT_FENCE.FLUSH_COUNT. Reset 0. -/
  fenceCount : BitVec 32
  /-- 1 bit. 02 ATT_STATUS.OOB_ACCESS, R29. Reset 0. -/
  oob : Bool
  /-- 1 bit. 02 ATT_STATUS.ORPHAN_WARN, R58. Reset 0. -/
  orphanWarn : Bool
  /-- 02 ring registers 0 to 7. Reset as Ring. -/
  rings : List Ring
  /-- 02 R34: posted BAR2 writes accepted and not yet landed, oldest first. Reset empty. -/
  posted : List (Nat × List (BitVec 8))
  /-- 02 R47: read-prefetch buffer, lines by line number. Reset empty. -/
  prefetch : List (Nat × List (BitVec 8))
  /-- 02 R31: vectors pending for commands without a tenant. Reset empty. -/
  pendVec : List Nat
  deriving DecidableEq, Repr

/-- What a started command waits for before it replies. -/
inductive Wait where
  | mover (mv ch : Nat)
  | fence
  | chanStop (mv ch : Nat)
  | kernel (kid : Nat)
  | jobStart (h : Nat)
  | jobPause (h : Nat)
  | jobStop (h : Nat)
  | stepRun (h : Nat)
  | groupCreate (gid : Nat)
  | groupDestroy (gid : Nat)
  | collective (rid : Nat)
  | streamClose (h : Nat) (mode : Nat)
  | streamFeed (h : Nat)
  | policy (mask : BitVec 8)
  | blockReset
  | ckptTake (h : Nat)
  | ckptRestore (h : Nat)
  | rollout (h : Nat)
  | pipeStop (tenant : Nat)
  | peerReset (tag : Nat)
  | release (tenant : Nat)
  | reservoir
  | domains (mask : BitVec 20)
  deriving DecidableEq, Repr

/-- A started command that has not ended (02 R36, R41, R44). -/
structure RunCmd where
  /-- Model's own number of the command. -/
  uid : Nat
  /-- 02: attachment whose ring it came through; 4 + id once its tenant `id` is unbound (R57). -/
  att : Nat
  /-- 02: ring it came through. -/
  ring : Nat
  /-- 02 R43: where its reply goes. -/
  loc : ReplyLoc
  /-- 16 bits. 02 reply OPCODE echo. -/
  opcode : BitVec 16
  /-- 32 bits. 02 reply SEQ echo. -/
  seq : BitVec 32
  /-- 1 bit. 02 FLAGS.IRQ, R30. -/
  irq : Bool
  /-- 02 R31: tenant that receives the vector, 0 for none. -/
  tenant : Nat
  /-- 32 bits. 02 TIMEOUT_MS, R44. -/
  timeoutMs : Nat
  /-- 1 bit. 02 R44: the reply was already written with TIMEOUT. -/
  timedOut : Bool
  /-- What it waits for. -/
  wait : Wait
  deriving DecidableEq, Repr

/-- A ring's registers kept for an unbound tenant (02 R55). -/
structure SavedRing where
  base : BitVec 64
  replyBase : BitVec 64
  enable : Bool
  log2 : BitVec 4
  head : BitVec 32
  tail : BitVec 32
  window : Bool
  taken : List Taken
  deriving DecidableEq, Repr

/-- A loaded plan (02 R60 to R63; 18 R632). -/
structure Plan where
  /-- 16 bits. 02 plan handle. -/
  handle : Nat
  /-- 02: local address of the image. -/
  addr : Nat
  /-- 02: bytes of the image. -/
  len : Nat
  /-- 02 KIND: 1 training, 2 serving. -/
  kind : Nat
  /-- 02 R62: physical tile of each logical tile. -/
  tiles : List Nat
  /-- 64 bytes. 18 R632 M_PLAN. -/
  digest : List (BitVec 8)
  deriving DecidableEq, Repr

/-- A tenant (02 R51 to R59). -/
structure Tenant where
  /-- 02: id 1 to 4. -/
  id : Nat
  /-- 8 bits. 02 R51: tile mask. -/
  tiles : BitVec 8
  /-- 02: bound attachment. -/
  att : Option Nat
  /-- 02 R58: attachment it was last bound to. -/
  lastAtt : Nat
  /-- 64 bits. 02 R52: valid session ticket. -/
  ticket : BitVec 64
  /-- 32 bits. 02 ORPHAN_HOLD_S; 0 keeps it indefinitely. -/
  holdS : Nat
  /-- 1 bit. 02 R58, R71: being released under the stop rule. -/
  releasing : Bool
  /-- 02 R55: saved rings of an unbound tenant. -/
  saved : List SavedRing
  /-- 02 R31: pending vectors. -/
  pendVec : List Nat
  /-- 02 R60: loaded plans, at most 16. -/
  plans : List Plan
  /-- 64 bits. 03 TELEMETRY_READ MODE 1 destination. -/
  telemDest : Option Nat
  deriving DecidableEq, Repr

/-! ### Movers -/

/-- Who issued a mover request. -/
inductive ReqSrc where
  | command (uid tenant : Nat)
  | path (t p seq bundle kid : Nat)
  deriving DecidableEq, Repr

/-- A run of consecutive descriptors given to a channel (02 R656, 07 R242). -/
structure Req where
  /-- Who issued it. -/
  src : ReqSrc
  /-- 02, 07: local address of the first descriptor; none for generated ones. -/
  base : Option Nat
  /-- 02 R656: generated descriptors, 64 bytes each, of FILL and COMPARE. -/
  gen : List (List (BitVec 8))
  /-- Number of descriptors. -/
  count : Nat
  /-- Descriptors completed. -/
  done : Nat
  /-- 02 MOVE reply: first descriptor not OK, index and status. -/
  bad : Option (Nat × Nat)
  /-- 07 R242: first status other than OK and MISCOMPARE. -/
  fail : Option Nat
  /-- 02 R656: saturating sum of mismatches. -/
  mism : Nat
  /-- 02 R656: first differing byte, counted over all descriptors. -/
  first : Option Nat
  /-- 02 R656: bytes of the completed descriptors. -/
  bytes : Nat
  deriving DecidableEq, Repr

/-- A mover descriptor's fields (02 mover descriptor table). -/
structure Desc where
  op : Nat
  event : Bool
  chain : Bool
  dims : Nat
  prio : Nat
  fillWidth : Nat
  length0 : Nat
  src : Nat
  dst : Nat
  count1 : Nat
  count2 : Nat
  srcS1 : Nat
  srcS2 : Nat
  dstS1 : Nat
  dstS2 : Nat
  deriving DecidableEq, Repr

/-- The descriptor a channel is running (02 R79, R80). -/
structure Active where
  /-- Decoded fields. -/
  d : Desc
  /-- 02 R74: bytes already issued, in iteration order. -/
  pos : Nat
  /-- Bytes in total. -/
  total : Nat
  /-- 02 R655: the index list of a GATHER as read so far, and whether every check has passed. -/
  list : List (BitVec 8)
  listed : Bool
  /-- Status so far (02 R48). -/
  status : Nat
  /-- 32 bits. 02 MISMATCHES. -/
  mism : Nat
  /-- 02 FIRST_MISMATCH. -/
  first : Option Nat
  /-- 11 R395: remote requests not yet answered. -/
  waiting : Nat
  /-- 10 R343: bytes of a staging page not yet handed over whole. -/
  page : List (BitVec 8)
  /-- 02 R71: stopped; the staging page in progress is still filled, since a page is written whole (10 R343). -/
  cut : Bool
  deriving DecidableEq, Repr

/-- One mover channel (02 R73, R82, R83). -/
structure Chan where
  /-- 1 bit. 02 CHANNEL_ENABLE, R83. Reset 0. -/
  enabled : Bool
  /-- 1 bit. 02 R71, R72. Reset 0. -/
  stopping : Bool
  /-- 8 bits. 02 R82 MSI-X vector, 0xFF for none. Reset 0xFF. -/
  vector : Nat
  /-- 02 R78: requests in order. Reset empty. -/
  reqs : List Req
  /-- 02 R80: descriptor in progress. Reset none. -/
  act : Option Active
  deriving DecidableEq, Repr

/-- A mover (02 R73, R79). -/
structure Mover where
  /-- 02: 64 channels of a tile mover, 32 of the hub mover. -/
  chans : List Chan
  /-- 02 R79: channel served last at each level 0 to 7. Reset 0. -/
  rr : List Nat
  /-- 02 R82: channel events raised to the control cores, oldest first. Reset empty. -/
  events : List Nat
  deriving DecidableEq, Repr

/-! ### Kernels -/

/-- One bundle: four 64-bit slots (07 bundle layout). -/
structure Bundle where
  ctl : BitVec 64
  mat : BitVec 64
  vec : BitVec 64
  mov : BitVec 64
  deriving DecidableEq, Repr

/-- An instruction in a unit queue (07 R233, R658). -/
structure QItem where
  /-- 64 bits. 07: the slot's word. -/
  word : BitVec 64
  /-- 32 bits. 07 R658: value of C[AREG] read at dispatch. -/
  areg : BitVec 32
  /-- 07 R261: bundle index. -/
  bundle : Nat
  /-- 07 R243: dispatch number within the unit. -/
  seq : Nat
  deriving DecidableEq, Repr

/-- A token addition not yet made (07 R243). -/
structure Signal where
  token : Nat
  ttile : Nat
  /-- 07 R243: dispatch numbers below which each unit must have completed. -/
  mUpTo : Nat
  vUpTo : Nat
  xUpTo : Nat
  bundle : Nat
  deriving DecidableEq, Repr

/-- A token signal on its way to another tile (07 R246). -/
structure RemoteSig where
  src : Nat
  dst : Nat
  token : Nat
  kid : Nat
  pair : Nat
  bundle : Nat
  deriving DecidableEq, Repr

/-- One level of an issue path's loop stack (07 R238). -/
structure LoopFrame where
  first : Nat
  last : Nat
  left : Nat
  deriving DecidableEq, Repr

/-- A move-slot request that has not completed (07 R243). -/
structure MoveOut where
  seq : Nat
  bundle : Nat
  sig : Option (Nat × Nat)
  deriving DecidableEq, Repr

/-- One issue path (07 R233 to R245). -/
structure Path where
  /-- 07 R259: belongs to the running kernel. Reset 0. -/
  active : Bool
  /-- 07 R233: instruction buffer, up to 2,048 bundles. Reset empty. -/
  prog : List Bundle
  /-- 11 bits. 07: index of the next bundle. Reset 0. -/
  pc : Nat
  /-- 07 R238: active loops, innermost first, at most four. Reset empty. -/
  loops : List LoopFrame
  /-- 16 x 32 bits. 07 R236 C0 to C15. Reset 0. -/
  creg : List (BitVec 32)
  /-- 07 R259: END dispatched. Reset 0. -/
  ended : Bool
  /-- 07 R244: the WAIT of the next bundle has subtracted. Reset 0. -/
  waited : Bool
  /-- 07 R658: control slot dispatched and not yet in effect. Reset none. -/
  ctl : Option QItem
  /-- 07 R233: matrix queue, 16 deep. Reset empty. -/
  mq : List QItem
  /-- 07 R233: vector queue, 16 deep. Reset empty. -/
  vq : List QItem
  /-- 07 R233: move queue, 16 deep. Reset empty. -/
  xq : List QItem
  /-- 07 R243: dispatch numbers given out, per unit. Reset 0. -/
  mSeq : Nat
  vSeq : Nat
  xSeq : Nat
  /-- 07 R243: token additions waiting. Reset empty. -/
  sigs : List Signal
  /-- 07 R243: move-slot requests not completed. Reset empty. -/
  moves : List MoveOut
  deriving DecidableEq, Repr

/-- A recorded kernel fault (07 R261, R262). -/
structure KFault where
  code : Nat
  ltile : Nat
  pair : Nat
  bundle : Nat
  status : Nat
  deriving DecidableEq, Repr

/-- A running kernel (07 R257 to R262). -/
structure Kernel where
  kid : Nat
  tenant : Nat
  /-- 02 R64: job handle and step entry, for a kernel inside a job. -/
  entry : Option (Nat × Nat)
  /-- 07: physical tile of each logical tile. -/
  tiles : List Nat
  pairMask : BitVec 16
  /-- 64 bits. 07 R258 SEED. -/
  seed : BitVec 64
  /-- 64 bits. 07 R258 STEP. -/
  step : BitVec 64
  /-- 15 R550: the sequences of the rollout whose step started the kernel, each with its ROLLOUTS; empty for any other
  kernel. -/
  roll : List (Nat × Nat)
  runLimitMs : Nat
  faults : List KFault
  startUs : Nat
  deriving DecidableEq, Repr

/-- An operand descriptor (05 R165). -/
structure OpDesc where
  base : Nat
  lines : Nat
  strided : Bool
  stride : Nat
  scaleBase : Nat
  scaleStride : Nat
  deriving DecidableEq, Repr

/-- A slot context (05 R170). -/
structure SlotCtx where
  tensorId : BitVec 32
  rowBase : BitVec 32
  colBase : BitVec 32
  kgBase : BitVec 32
  x64Addr : Nat
  groups : BitVec 32
  /-- 05 R172: bound spill interval, none when unbound. -/
  spillBound : Option Nat
  /-- 05 R178: the slot has spilled since its last clear, load or drain. -/
  spilled : Bool
  deriving DecidableEq, Repr

/-- An MMA in flight (05 R168, R173). -/
structure MmaRun where
  seq : Nat
  bundle : Nat
  kid : Nat
  slot : Nat
  oda : OpDesc
  odb : OpDesc
  kExt : Nat
  fmt : Nat
  rmode : Nat
  spill : Nat
  clear : Bool
  /-- 05 R192: K-groups completed. -/
  j : Nat
  deriving DecidableEq, Repr

/-- One matrix core (05). -/
structure Core where
  /-- 16 slots x 65,536 x 32 bits. 05 accumulator memory; key slot*65,536 + 256*r + c; unlisted reads +0. Reset 0 (R249). -/
  acc : List (Nat × BitVec 32)
  /-- 16 entries. 05 slot contexts, R170, R198. Reset 0. -/
  ctx : List SlotCtx
  /-- 16 bits. 05 R175: the slot belongs to the vector engine. Reset 0. -/
  given : List Bool
  /-- 32 entries. 05 R165 OD0 to OD31. Reset 0. -/
  ods : List OpDesc
  /-- 05 R173: MMAs in flight, oldest first, at most four. Reset empty. -/
  runs : List MmaRun
  /-- 05 R173: slot served last. Reset 0. -/
  rr : Nat
  /-- 32 bits. 05 R195 CHECKSUM_FAULTS. Reset 0. -/
  checksumFaults : Nat
  /-- 05 R193, R194: fault times in microseconds since power-up of D0, newest first. Reset empty. -/
  faultTimes : List Nat
  /-- 64 bits. 05 R195 LAST_FAULT_MS. Reset 0. -/
  lastFaultMs : Nat
  /-- 32 bits. 05 R185 NONFINITE_OUT. Reset 0. -/
  nonfiniteOut : Nat
  /-- 1 bit. 05 R193 fenced. Reset 0. -/
  fenced : Bool
  deriving DecidableEq, Repr

/-- One vector engine (06 engine state table). -/
structure Engine where
  /-- 32 x 512 x 32 bits. 06 V0 to V31; key 512*v + 32*r + c; unlisted reads 0. Reset 0. -/
  v : List (Nat × BitVec 32)
  /-- 8 x 16 x 64 bits. 06 M0 to M7: entry 16*k + r is row r of Mk, bit c its column c. Reset M0 all ones, others 0. -/
  m : List (BitVec 64)
  /-- 16 x 32 bits. 06 S0 to S15. Reset 0. -/
  sc : List (BitVec 32)
  /-- 5 bits. 06 LROWS. Reset 16. -/
  lrows : Nat
  /-- 7 bits. 06 LCOLS. Reset 32. -/
  lcols : Nat
  /-- 5 bits. 06 R216 FLAGS. Reset 0. -/
  flags : BitVec 5
  /-- 32 bits. 06 VCTX.TENSOR_ID. Reset 0. -/
  tensorId : BitVec 32
  /-- 32 bits. 06 VCTX.ROW_BASE. Reset 0. -/
  rowBase : BitVec 32
  /-- 32 bits. 06 VCTX.COL_BASE. Reset 0. -/
  colBase : BitVec 32
  /-- 06 R232: registers that hold an error, V0 to V31, then M0 to M7 from 32, then S0 to S15 from 40. Reset empty. -/
  regErr : List (Nat × WordErr)
  deriving DecidableEq, Repr

/-- A layer's partial entries on this module (06 R230). -/
structure LedgerWait where
  addr : Nat
  layer : Nat
  step : Nat
  stripes : Nat
  present : List Nat
  deriving DecidableEq, Repr

/-- A request at the XU or the spillway engine (07 R242, 08 R263, 09 R292). -/
structure UnitReq where
  t : Nat
  p : Nat
  seq : Nat
  bundle : Nat
  kid : Nat
  /-- Cistern offset of the first descriptor. -/
  base : Nat
  count : Nat
  done : Nat
  deriving DecidableEq, Repr

/-- Write-back values of a completed expansion command or tensor descriptor (08 R287, 09 R312). -/
structure UnitDone where
  status : Nat
  omitted : Nat
  dropped : Bool
  maxError : BitVec 32
  escaped : Nat
  streamBytes : Nat
  op : Nat
  deriving DecidableEq, Repr

/-- Remote reads and writes of the XU's command in progress (08 R267; 11 R389 to R391). -/
structure UnitNet where
  /-- Addresses of remote pieces asked for. -/
  asked : List Nat
  /-- Pieces received, by 64-bit address. -/
  got : List (Nat × List (BitVec 8))
  /-- Pieces still to be written: address and bytes. -/
  todo : List (Nat × List (BitVec 8))
  /-- Requests not yet answered. -/
  waiting : Nat
  /-- First status other than OK of a response. -/
  err : Nat
  deriving DecidableEq, Repr

/-- An operating policy (03 R102, R103). -/
structure Policy where
  mode : Nat
  marginAdd : Nat
  target : Nat
  deriving DecidableEq, Repr

/-- A clamp in force on a quantity (03 R109): its governing limit, the applied value last recorded, the applied value
in force and when that last changed. -/
structure Clamp where
  limit : Nat
  reported : Nat
  value : Nat
  changedUs : Nat
  deriving DecidableEq, Repr

/-- Margin governor state of a tile (03). -/
structure Gov where
  /-- mV. 03 R95 core rail. Reset 750 (R94). -/
  rail : Nat
  /-- mV. 03 R93 sentinel floor. Reset 550. -/
  sentinelFloor : Nat
  /-- 03 R96: floor raised by an emergency, for 1 hour. Reset none. -/
  heldFloor : Option Nat
  /-- 1 bit. 03 R94: first floor measured. Reset 0. -/
  floorSet : Bool
  /-- 1 bit. 03 R96: issue stopped by an emergency. Reset 0. -/
  emergency : Bool
  /-- mV. 03 R111 ageing guard. Reset 10. -/
  guard : Nat
  /-- mV. 03 R111: largest guard over the ledger. Reset 10. -/
  guardLedger : Nat
  /-- mV. 03 R97 thermal ceiling. Reset 850. -/
  vThermal : Nat
  /-- mV. 03 R98 electrical ceiling. Reset 850. -/
  vElectrical : Nat
  /-- mV. 03 R99 power cap ceiling. Reset 850. -/
  vCap : Nat
  /-- 64ths. 03 R100 pace. Reset 64. -/
  pace : Nat
  /-- 03 R103 policy. Reset mode 1, 2,400, 0. -/
  policy : Policy
  /-- mV. 03 R106 applied target of the last loop. Reset 750. -/
  applied : Nat
  /-- M beats/s. 03 BEAT_MHZ measured. Reset 0. -/
  beatMhz : Nat
  /-- 0.1 C. 03 TJ hottest junction. Reset 0. -/
  tj : Int
  /-- 0.25 %. 03 MIN_SLACK. Reset 0. -/
  minSlack : Nat
  /-- mW. 03 POWER_MW. Reset 0. -/
  powerMw : Nat
  /-- 03 LIMIT code. Reset 0. -/
  limit : Nat
  /-- mV. 03 R106 v_ceiling. Reset 850. -/
  ceiling : Nat
  /-- 1 bit. 03 R116: the thermal limit is lowering the ceiling. Reset 0. -/
  thermalOn : Bool
  /-- mV. 03 V_RATED. Reset 720 (rated point). -/
  vRated : Nat
  /-- 1 bit. 03 R107: fenced by FLOOR_EXCEEDED. Reset 0. -/
  floorFence : Bool
  /-- 1 bit each. 03 R113: AGEING_WARN, END_OF_LIFE recorded since reset. Reset 0. -/
  warned : Bool
  eol : Bool
  /-- 1 bit. 03 R119: the hourly measurement fell due while the tile was gated or stopped. Reset 0. -/
  ageDue : Bool
  /-- 32 bits. 03 EMERG_COUNT. Reset 0. -/
  emergCount : Nat
  /-- 16 R573: times of emergencies in microseconds, newest first. Reset empty. -/
  emergTimes : List Nat
  /-- 32 bits. 03 REG_ECC_CE. Reset 0. -/
  regEccCe : Nat
  /-- 03 R109: clamps in force on CORE_VOLTAGE, BEAT_RATE and MARGIN_ADD. Reset none. -/
  clampV : Option Clamp
  clampB : Option Clamp
  clampM : Option Clamp
  deriving DecidableEq, Repr

/-- Health counters of a memory group (10 R337). -/
structure MemGroup where
  /-- 2 bits. 10 STATE: 0 off, 1 initialising, 2 ready, 3 degraded. Reset 0. -/
  st : Nat
  /-- 64 bits. 10 sequence number of the health record. Reset 0. -/
  seq : Nat
  /-- 64 bits. 10 CE_LINES. Reset 0. -/
  ceLines : Nat
  /-- 64 bits. 10 UE_EVENTS. Reset 0. -/
  ueEvents : Nat
  /-- 64 bits. 10 ONDIE_CORRECTED. Reset 0. -/
  onDie : Nat
  /-- 32 bits. 10 SCRUB_PASSES. Reset 0. -/
  passes : Nat
  /-- 38 bits. 10 R332 next offset of the patrol scrub. Reset 0. -/
  scrubOff : Nat
  /-- hours. 17 R614 pass interval, and the one from the next pass. Reset 24. -/
  passHours : Nat
  nextHours : Nat
  /-- 10 R334 retired frames, ascending. Reset empty (from the log region). -/
  retired : List Nat
  /-- 16 R573: times of retirements in microseconds, newest first. Reset empty. -/
  retTimes : List Nat
  /-- 1 bit. 10 R336 GROUP_DEGRADED recorded. Reset 0. -/
  degraded : Bool
  /-- 10 R333: corrected lines with times in microseconds, newest first. Reset empty. -/
  corrected : List (Nat × Nat)
  /-- 64 records of 32 bytes. 10 LOG, newest first. Reset empty. -/
  log : List (List (BitVec 8))
  /-- 64 bits. 10 record SERIAL. Reset 0. -/
  serial : Nat
  /-- 10 R337: time of the last rewrite of the record, in microseconds; none before the first. Reset none. -/
  recUs : Option Nat
  deriving DecidableEq, Repr

/-- One compute tile (01 block inventory). -/
structure Tile where
  /-- 07 R233: 16 issue paths. -/
  paths : List Path
  /-- 05: 16 matrix cores. -/
  cores : List Core
  /-- 06: 16 vector engines. -/
  engines : List Engine
  /-- 256 x 16 bits. 07 R243 token counters; unlisted reads 0. Reset 0 (set at launch, R258). -/
  tok : List (Nat × Nat)
  /-- 07 R245 owning pair of each counter of the token table. Reset empty. -/
  tokOwner : List Nat
  /-- 07 R257: kernel that runs on the tile. Reset none. -/
  kernel : Option Nat
  /-- 02: tile mover. -/
  mover : Mover
  /-- 08 R263: expansion requests. Reset empty. -/
  xu : List UnitReq
  /-- 08 R287: finished command not yet written back. Reset none. -/
  xuDone : Option UnitDone
  /-- 08 R267: remote accesses of the command in progress. Reset empty. -/
  xuNet : UnitNet
  /-- 09 R292: spillway requests. Reset empty. -/
  spw : List UnitReq
  /-- 09 R312: finished descriptor not yet written back. Reset none. -/
  spwDone : Option UnitDone
  /-- 09 R307: 4 MiB reference buffer: key of its stream and frame, and its decoded rows. Reset empty. -/
  refBuf : List (Nat × List Nat)
  /-- 06 R230: partial entries written. Reset empty. -/
  ledger : List LedgerWait
  /-- 03: margin governor. -/
  gov : Gov
  /-- 10: memory group. -/
  mg : MemGroup
  /-- 1 bit. 18 R623: fenced at self-test. Reset 0. -/
  selfFence : Bool
  deriving DecidableEq, Repr

/-! ### Jobs -/

/-- Job states (02 job states table). -/
inductive JobState where
  | starting | running | pausing | paused | stopping | stopped | failed
  deriving DecidableEq, Repr

/-- Where a step entry stands (02 R64). -/
inductive EntryState where
  | waiting | running | done (status : Nat)
  deriving DecidableEq, Repr

/-- A checkpoint being taken (16 R565 to R568). -/
structure CkptRun where
  step : Nat
  tiers : Nat
  left : Nat
  slot : Nat
  slotSeq : Nat
  status : Nat
  /-- 16 R575: cost of the steps that have closed during it, in microseconds. -/
  costUs : Int
  /-- Tiers committed. -/
  good : Nat
  deriving DecidableEq, Repr

/-- A checkpoint policy (16 R572). -/
structure CkptPolicy where
  auto : Bool
  sharedEvery : Nat
  threshold : Nat
  minS : Nat
  maxS : Nat
  fleetFailures : Nat
  fleetHours : Nat
  stepTimeoutS : Nat
  sharedAtt : Nat
  sharedAddr : Nat
  sharedBytes : Nat
  deriving DecidableEq, Repr

/-- A holdings record (11 holdings record; 16 R579). -/
structure Holdings where
  oldJob : BitVec 64
  image0 : Option Nat
  image1 : Option Nat
  slot0 : Option Nat
  slot1 : Option Nat
  shared0 : Option Nat
  shared1 : Option Nat
  parity : Option Nat
  deriving DecidableEq, Repr

/-- One 512-byte piece of an image being rebuilt from the guard (16 R561, R580): the segment, the offset in it, the
symbols still asked for, and those that have come (positions 0 to K − 1, then P as K and Q as K + 1). -/
structure Rebuild where
  seg : Nat
  off : Nat
  left : Nat
  got : List (Nat × List (BitVec 8))
  deriving DecidableEq, Repr

/-- A restore in progress (16 R578 to R583). -/
structure RestoreRun where
  source : Nat
  oldJob : BitVec 64
  step : Option Nat
  oldMembers : List Nat
  sharedAtt : Nat
  sharedAddr : Nat
  holdings : List (Nat × Holdings)
  done : List Nat
  /-- Step and source chosen. -/
  chosen : Option (Nat × Nat)
  /-- 16 R580: pieces still to be rebuilt from the guard. -/
  rebuild : Option Rebuild
  /-- 16 R581: 0 holdings are being exchanged, 1 the image, 2 the groups, 3 the parity pass, 4 completion announced. -/
  stage : Nat
  /-- 16 R581: groups still being created. -/
  groups : List Nat
  /-- 16 R563, R564: the hosted generation has been zeroed for the parity pass. -/
  zeroed : Bool
  resync : Bool
  position : Nat
  deriving DecidableEq, Repr

/-- A job (02 R60 to R70; 12 R468, R469; 16). -/
structure Job where
  handle : Nat
  /-- 64 bits. 02 job id. -/
  jobId : BitVec 64
  /-- 64 bits. 02 job seed. -/
  seed : BitVec 64
  plan : Nat
  tenant : Nat
  stepped : Bool
  /-- 02: module IDs in job-rank order. -/
  members : List Nat
  rank : Nat
  stepGroup : Nat
  st : JobState
  /-- 11 R385: installed windows (base, length, rights). -/
  windows : List (Nat × Nat × Nat)
  /-- 02: last closed step. -/
  lastClosed : Option Nat
  /-- 02 R68: open step. -/
  openStep : Option Nat
  /-- 02 R68: step at whose close the job pauses. -/
  pauseAt : Option Nat
  /-- 02 R66: steps left of STEP_RUN. -/
  runLeft : Option Nat
  /-- 02 R64: state of each step entry. -/
  entries : List EntryState
  /-- 12 R450: COUNT_SUM of the step done. -/
  summed : Bool
  /-- 12 R450: UPDATEs run with SKIP. -/
  skip : Bool
  /-- 64 bits. 12 R449 step count. -/
  stepCount : Nat
  /-- 16 R576: status of a COUNT_SUM that ended other than OK. -/
  failWith : Option Nat
  /-- 02 R64: the step's work has ended. -/
  workEnded : Bool
  /-- 12 R468: this member's ARRIVE is made. -/
  arrived : Bool
  /-- 12 R468: ranks from which ARRIVE came this step, with risk (16 R573). -/
  arrivals : List (Nat × Nat)
  openUs : Nat
  /-- 12 R469: last 63 arrival times. -/
  times : List Nat
  closedSteps : Nat
  /-- 16 R559: guard size, and the pending one with its step. -/
  guardK : Nat
  guardNext : Option (Nat × Nat)
  /-- 12 R468: this member's ARRIVE has gone up the tree. -/
  sentUp : Bool
  /-- 16 R563: next packet of the parity pass in progress. -/
  pdataNext : Option Nat
  /-- 16 R564: PDATA packets not acknowledged. -/
  pdataOut : Nat
  /-- 16 R579: step of the complete hosted parity generation. -/
  parityStep : Option Nat
  ckpt : Option CkptRun
  /-- 16 R566: CKPT_TAKE of these tiers at the close of this step. -/
  ckptAt : Option (Nat × Nat)
  policy : CkptPolicy
  dueCount : Nat
  lastDueUs : Nat
  armed : Bool
  /-- 16 R575: the interval in microseconds. -/
  intervalUs : Nat
  /-- 16 R575: the most recent checkpoint's cost in microseconds; while the last step that ran during its copy is open, what
  the steps before it add up to. -/
  costUs : Option Nat
  costOpen : Option Int
  startUs : Nat
  losses : Nat
  restore : Option RestoreRun
  /-- 02 R67: a RESUME has come before this member has started or paused; it runs on once it has. Reset 0. -/
  resumeNext : Bool
  /-- 16 R579: holdings that came before this member's own CKPT_RESTORE, by rank. -/
  early : List (Nat × Holdings)
  deriving DecidableEq, Repr

/-! ### Groups and collectives -/

inductive GroupState where
  | creating | ready | destroying
  deriving DecidableEq, Repr

/-- A group (12 R421 to R425). -/
structure Group where
  gid : Nat
  vc : Nat
  low : Bool
  job : Nat
  members : List Nat
  rank : Nat
  digest : List (BitVec 8)
  st : GroupState
  step : Bool
  /-- 12 R462: instances issued on this member since the group's creation. -/
  issued : Nat
  /-- 12 R446: numbers of instances, not yet issued here, that have ended with RESIDUE_FAULT elsewhere. -/
  doomed : List Nat
  deriving DecidableEq, Repr

/-- One input of an adder, or a delivery to this module: the packets of a stream that have come (12 R443, R461). -/
structure StreamIn where
  /-- Sending module. -/
  src : Nat
  /-- Packet type 0x10 or 0x11; its SHARD; its LEVEL, 0xF for a delivery. -/
  ty : Nat
  shard : Nat
  level : Nat
  /-- Received and not yet used, oldest first. -/
  q : List Pkt
  /-- 12 R445: a resend is outstanding. -/
  resend : Bool
  /-- 12 R461: the packet marked LAST has come. -/
  last : Bool
  /-- Bytes or elements used so far; every packet used. -/
  pos : Nat
  ended : Bool
  /-- 12 R464: an acknowledgement, resend request or LANDED has been sent for it. -/
  acked : Bool
  /-- 12 R455: the full count that an EXCHANGE stream announced. -/
  full : Nat
  deriving DecidableEq, Repr

/-- An adder computed on this module (12 R431 to R434): the ranks it covers, from `lo` on and below `hi`. -/
structure Adder where
  shard : Nat
  level : Nat
  lo : Nat
  hi : Nat
  lower : StreamIn
  upper : StreamIn
  /-- The output marked LAST has been put out. -/
  ended : Bool
  deriving DecidableEq, Repr

/-- Who issued a collective. -/
inductive CollSrc where
  | command (uid : Nat)
  | entry (job i : Nat)
  | sum (job : Nat)
  deriving DecidableEq, Repr

/-- One outstanding collective (12 R426 to R467). -/
structure CollRun where
  rid : Nat
  gid : Nat
  vc : Nat
  op : Nat
  wire : Nat
  sfmt : Nat
  dfmt : Nat
  src : Nat
  dst : Nat
  count : Nat
  aux : Nat
  arg : Nat
  tenant : Nat
  who : CollSrc
  /-- 12 R460: holds one of the 16 places of its channel. -/
  started : Bool
  /-- 12 R459: bytes of each region of a RESHARD. -/
  region : Option Nat
  /-- 12 R457 move table: source rank, destination rank, source offset, destination offset, length. -/
  table : List (Nat × Nat × Nat × Nat × Nat)
  adders : List Adder
  /-- Packets to send, in order. -/
  out : List Pkt
  /-- Deliveries to this module. -/
  recv : List StreamIn
  /-- 12 R462: its number among the instances of its group, in the order of issue. -/
  ord : Nat
  /-- 12 R466: stopped under the stop rule: it sends nothing more and ends with ABORTED. -/
  halted : Bool
  /-- 12 R458: move table entries sent whose LANDED has not come; entries received and not yet whole, by index. -/
  landing : List Nat
  toLand : List Nat
  nonfinite : Nat
  faults : Nat
  dropped : Nat
  progressUs : Nat
  deriving DecidableEq, Repr

/-- A packet kept until its CHECK_ACK (12 R444). -/
structure Retained where
  rid : Nat
  pkt : Pkt
  deriving DecidableEq, Repr

/-! ### Fabric -/

inductive LinkState where
  | down | training | active | degraded | sleep | retrain | fault
  deriving DecidableEq, Repr

/-- An optical calibration in progress (11 R362). -/
structure LaneCal where
  /-- Lanes left to tune, the present one first. -/
  lanes : List Nat
  /-- Count at the lane's present settings; none while it is taken. -/
  base : Option Nat
  /-- Setting on trial: 0 to 5 the partner's transmitter, from 6 on this end's receiver. -/
  setting : Nat
  /-- The step on trial is up. -/
  up : Bool
  deriving DecidableEq, Repr

/-- A port of the router (11 R352 to R366). -/
structure Port where
  /-- 11 link states. Reset DOWN. -/
  st : LinkState
  /-- Lanes. Reset 0. -/
  width : Nat
  /-- 11 R366: width before sleep. Reset 0. -/
  trained : Nat
  /-- 11 R363: lowest lane of the lane set in use. Reset 0. -/
  lane : Nat
  /-- 11 R363: failed attempts. Reset 0. -/
  attempts : Nat
  /-- 15 bits. 11 R364: partner's ID. Reset none. -/
  partner : Option Nat
  /-- 16 bits. 11 IDENT: generation the partner announced. Reset 0. -/
  partnerGen : Nat
  /-- 11 R364: the partner's IDENT has come since the training began. Reset 0. -/
  ident : Bool
  /-- 11 R366 width the partner asks for. Reset 16. -/
  partnerW : Nat
  /-- 11 R419 module IDs whose entries this neighbour has sent since training, ascending. Reset empty. -/
  mapGot : List Nat
  /-- 11 R362 TXEQ messages sent and not yet answered. Reset empty. -/
  txeqOut : List (List (BitVec 8))
  /-- 11 R365: no packets on this port. Reset 0. -/
  mute : Bool
  /-- 32 bits. 11 FRAME_SEQ of the next new frame. Reset 0. -/
  txSeq : BitVec 32
  /-- 32 bits. 11 last frame accepted. Reset all ones (none yet). -/
  rxSeq : BitVec 32
  /-- 1 bit. 11 R357: discarding until the resend. Reset 0. -/
  nak : Bool
  /-- 11 R358: replay buffer, at most 64. Reset empty. -/
  replay : List Frame
  /-- 11 R358: frames to send again before any new one. Reset empty. -/
  resend : List Frame
  /-- 11 R356: slots left of a packet partly sent, with their tags. Reset empty. -/
  txPart : List (BitVec 8 × List (BitVec 8))
  /-- Output: bytes of the last frame sent. Reset empty. -/
  txFrame : List (BitVec 8)
  /-- 11 R360: free slots of each class's reserve at the partner. Reset 256 each. -/
  credits : List Nat
  /-- 11 R360: free slots at the partner beyond the reserves, and those that each class uses. Reset 8,192, and 0 each. -/
  shared : Nat
  lent : List Nat
  /-- 11 R360: slots of this end's receive buffer that each class uses. Reset 0 each. -/
  used : List Nat
  /-- 32 x 16 bits. 11 CREDITS to return. Reset 0. -/
  freed : List Nat
  /-- 11 R359: times of NAKs within 1 ms, in microseconds. Reset empty. -/
  naks : List Nat
  /-- 16 R573: times of NAKs within a minute, in microseconds. Reset empty. -/
  nakTimes : List Nat
  /-- 11 R356: slots of a packet not yet whole. Reset empty. -/
  partSlots : List (BitVec 8)
  /-- 11: packets received and not yet routed, oldest first. Reset empty. -/
  inq : List Pkt
  /-- 11 R375: packets waiting for the output port. Reset empty. -/
  outq : List Pkt
  /-- 11 R375: last round-robin channel and VC7 count. Reset 0. -/
  arbRr : Nat
  arbVc7 : Nat
  /-- 64 bytes each. 11 link messages received and not yet handled. Reset empty. -/
  lmsgIn : List (List (BitVec 8))
  /-- 64 bytes each. 11 link messages to send. Reset empty. -/
  lmsgOut : List (List (BitVec 8))
  /-- 11 R362: transmitter settings per lane (bias, taps 1 to 5), and receive settings. Reset 0. -/
  txSet : List (Nat × Int)
  rxSet : List (Nat × Int)
  /-- 11 R362: calibration in progress, and when the last one began. Reset none. -/
  cal : Option LaneCal
  calUs : Option Nat
  deriving DecidableEq, Repr

/-- A packet triple's receive state (11 R403, R404). -/
structure Triple where
  src : Nat
  vc : Nat
  expect : BitVec 16
  held : List Pkt
  broken : Bool
  deriving DecidableEq, Repr

/-- What a remote request's response completes (11 R391). -/
inductive RemoteFor where
  | index (mv ch : Nat)
  | read (mv ch dst : Nat) (got : List (BitVec 8)) (rest : Option (Nat × Nat))
  | cmp (mv ch other off : Nat) (got : List (BitVec 8)) (rest : Option (Nat × Nat))
  | cmpWith (mv ch off : Nat) (data got : List (BitVec 8)) (rest : Option (Nat × Nat))
  | write (mv ch : Nat)
  | unitRead (t addr : Nat)
  | unitWrite (t : Nat)
  | atomic (mv ch : Nat) (result : Nat) (kind : Nat)
  | reset (uid : Nat) (job : BitVec 64)
  | parity (job : Nat)
  | rebuild (job sym : Nat)
  deriving DecidableEq, Repr

/-- An outstanding remote request (11 R402, R406). -/
structure Remote where
  tag : Nat
  dest : Nat
  vc : Nat
  addr : Nat
  len : Nat
  what : RemoteFor
  deriving DecidableEq, Repr

/-- A line of the remote read buffer (11 R398 to R400). -/
structure BufLine where
  peer : Nat
  line : Nat
  wgen : BitVec 32
  data : List (BitVec 8)
  deriving DecidableEq, Repr

/-! ### Media engine -/

inductive StreamState where
  | opened | draining | closing | held
  deriving DecidableEq, Repr

/-- Reference marks of a frame buffer (13 R479, R480), and the coding number of the decoded picture it holds. -/
structure Marks where
  ref : Bool
  output : Bool
  source : Bool
  work : Bool
  pic : Nat
  deriving DecidableEq, Repr

/-- A CHUNK fed and not yet read, or an END in its place (13 R482, R483, R493). -/
structure Chunk where
  uid : Nat
  last : Bool
  tag : BitVec 64
  addr : Nat
  len : Nat
  order : Nat
  feedUs : Nat
  deriving DecidableEq, Repr

/-- A chunk that has been read: its bytes, and whether they could be read (13 R483, R508). -/
structure Fed where
  tag : BitVec 64
  order : Nat
  feedUs : Nat
  bytes : List (BitVec 8)
  good : Bool
  deriving DecidableEq, Repr

/-- A picture waiting to be coded, or an END in its place (13 R494, R497, R504). -/
structure Queued where
  /-- An END that a STREAM_FEED waits for: the command's number (R483). -/
  uid : Option Nat
  order : Nat
  tag : BitVec 64
  buf : Nat
  key : Bool
  feedUs : Nat
  last : Bool
  deriving DecidableEq, Repr

/-- How a decode stream takes its pictures (13 R490 to R492): it discards up to the next random access point, or to the next
one whose sequence header is within the limits, or decodes. -/
inductive Sync where
  | seek | overLimit | run
  deriving DecidableEq, Repr

/-- A picture record of a stream that the input pipeline has opened for a sample, as its decode stage collects it: status,
size, depth, planes, the pictures discarded before it, and whether it ends the stream (14 R515). -/
structure Shown where
  status : Nat
  w : Nat
  h : Nat
  depth : Nat
  planes : List (BitVec 8)
  count : Nat
  last : Bool
  deriving DecidableEq, Repr

/-- A media stream (13). -/
structure Stream where
  handle : Nat
  tenant : Nat
  /-- 128 bytes. 13 STREAM_OPEN block. -/
  cfg : List (BitVec 8)
  encode : Bool
  /-- 2 bits. 13 R507 priority class. -/
  cls : Nat
  st : StreamState
  /-- 13 R479: marks of its buffers. -/
  marks : List Marks
  /-- Decode: chunks fed and not read, and those read since the coded sequence began. -/
  unread : List Chunk
  chunks : List Fed
  /-- Decode: pictures taken from the bitstream since the coded sequence began. -/
  picked : Nat
  /-- Decode: tag, type and size of the pictures that wait for output, by coding number. -/
  held : List (Nat × BitVec 64 × Nat × Nat × Nat × Nat)
  /-- Decode, 13 R490 to R492: whether it discards, the coding number at which it began last, and the pictures discarded
  since the last record. -/
  sync : Sync
  start : Nat
  skipped : Nat
  /-- Decode, 13 R479: coding numbers of the pictures in the decoder's reference store. -/
  store : List Nat
  /-- Encode: pictures queued, in feed order. -/
  queue : List Queued
  /-- 13 R484: records made whose slot has OWN = 0, oldest first, 64 bytes each. -/
  outq : List (List (BitVec 8))
  /-- 13: records made so far. -/
  records : Nat
  /-- 13 ORDER of the next picture. -/
  order : Nat
  /-- Encode, 13 R501: stream state of the weir. -/
  fill : Int
  qpPrev : Int
  bPrev : Int
  bitsPrev : Int
  keyRows : List Nat
  interRows : List Nat
  /-- Encode: no picture coded yet; pictures since the last key picture (13 R494, R496, R498). -/
  first : Bool
  sinceKey : Nat
  /-- Encode: buffer of the reference reconstruction. -/
  refBuf : Option Nat
  /-- 13 R497: write offset and unreleased access units (offset, end). -/
  bsOff : Nat
  units : List (Nat × Nat)
  /-- 15 R552 rollout picture count. -/
  rollout : Nat
  /-- 13 R472: a stream that the tenant's input pipeline has opened for itself: the sample's batch and slot; the contents of
  its frame buffers (depth, planes), and its records so far. -/
  feeds : Option (Nat × Nat)
  frames : List (Nat × List (BitVec 8))
  shown : List Shown
  /-- 13 R488: it closes for a release of its tenant or a BLOCK_RESET, so that no buffer keeps OUTPUT. -/
  ending : Bool
  deriving DecidableEq, Repr

/-- A pipe that codes a picture (13 R471): the stream, the picture, the buffer it writes, and for decode what the standard
gives. -/
structure PipeRun where
  handle : Nat
  pic : Queued
  buf : Option Nat
  got : Option Config.Picture
  deriving DecidableEq, Repr

/-! ### Input pipeline -/

inductive PipeState where
  | unconfigured | stopped | running | stopping
  deriving DecidableEq, Repr

/-- A sample in the pipeline (14). -/
structure Sample where
  /-- Batch sequence number and slot. -/
  n : Nat
  slot : Nat
  epoch : Nat
  sample : Nat
  /-- Where it stands: 0 to fetch its header, 1 admission, 2 to fetch its body, 3 decode, 4 augment, 5 assemble. -/
  at_ : Nat
  /-- 32 bytes. 14 manifest entry, once read. -/
  entry : List (BitVec 8)
  /-- Header region, then body, as read. -/
  bytes : List (BitVec 8)
  /-- 14 R516: its read has failed and waits for a retry; FETCH_STALLED has been recorded. -/
  failed : Bool
  stalled : Bool
  /-- 14 R515: its decoded frames in output order (depth, planes). -/
  frames : List (Nat × List (BitVec 8))
  /-- 14 R513, R515: status other than OK, and cause, of a rejected sample. -/
  status : Nat
  cause : Nat
  /-- 14 R513: size, depth and frames its headers declare; 0 frames when they declare none, then those decoded. -/
  w : Nat
  h : Nat
  depth : Nat
  nframes : Nat
  /-- 14 R513: codec, and pictures of the reference store, that its headers name. -/
  codec : Nat
  store : Nat
  /-- 14 R524: the clip tensor, and whether it was flipped. -/
  clip : List (BitVec 8)
  flip : Bool
  deriving DecidableEq, Repr

/-- A batch buffer in use (14 R518 to R521). -/
structure Batch where
  n : Nat
  epoch : Nat
  batch : Nat
  /-- 14 STATE: 1 filling, 2 complete. -/
  st : Nat
  /-- Slots issued to fetch, and slots written with (slot, sample, status, cause); padding slots are not listed. -/
  issued : Nat
  written : List (Nat × Nat × Nat × Nat)
  deriving DecidableEq, Repr

/-- A tenant's input pipeline (14). -/
structure Pipeline where
  tenant : Nat
  st : PipeState
  /-- 128 bytes. 14 PIPE_CONFIGURE block. -/
  cfg : List (BitVec 8)
  /-- 14 R512, R518: sequence number of the next batch to build. -/
  seqNo : Nat
  /-- 14 R522: next batch to read. -/
  readNo : Nat
  buffers : List Batch
  samples : List Sample
  /-- 64 bits each. 14 R530: SAMPLES, REJECTED, FETCH_RETRIES, WAIT_US. -/
  assembled : Nat
  rejected : Nat
  retries : Nat
  waitUs : Nat
  /-- 5 x 64 bits each. 14 R511, R530: STARVED_US, BLOCKED_US, ITEMS of the stages. -/
  starved : List Nat
  blocked : List Nat
  items : List Nat
  /-- 64 bits. 14 SEQ_BEGIN of the status record. -/
  recSeq : Nat
  /-- 32 bits. 14 R531 SERIAL of the last log entry. -/
  logSerial : Nat
  deriving DecidableEq, Repr

/-- A KV cache (15). -/
structure Kv where
  handle : Nat
  tenant : Nat
  layers : Nat
  heads : Nat
  group : Nat
  dim : Nat
  maxSeqs : Nat
  table : Nat
  pool : Nat
  frames : Nat
  deriving DecidableEq, Repr

/-- One entry of a ROLLOUT_STEP (15 rollout entry). -/
structure RollEntry where
  seq : Nat
  stream : Nat
  tokens : Nat
  pictures : Nat
  tag : BitVec 64
  /-- 15 R551 length at command start. -/
  len0 : Nat
  /-- 15 R552 pictures queued so far. -/
  queued : Nat
  deriving DecidableEq, Repr

/-- A rollout in progress (15 R548 to R552). -/
structure Rollout where
  uid : Nat
  job : Nat
  cache : Nat
  entries : List RollEntry
  deriving DecidableEq, Repr

/-! ### Power, boot and sideband -/

/-- Reset sources (17 R600), by cause code 1 to 7. -/
inductive Source where
  | powerOn | mainLoss | resetPin | watchdog | thermalTrip | firmware | peer
  deriving DecidableEq, Repr

/-- Bring-up states (02 R50, 18 R621). -/
inductive BringUp where
  | none | boot | selftest | ready | failed
  deriving DecidableEq, Repr

/-- Copies and selector of one object type (18 R619). -/
structure Copies where
  copy0 : List (BitVec 8)
  copy1 : List (BitVec 8)
  preferred : Nat
  tryCopy : Nat
  tryPending : Bool
  /-- Copy that runs, and whether it runs as the TRY copy (R622). -/
  running : Option Nat
  ranTry : Bool
  deriving DecidableEq, Repr

/-- A reservoir or shared checkpoint slot (16 R568). -/
structure CkptSlot where
  /-- 128 bytes; empty when zero. -/
  commit : List (BitVec 8)
  image : List (BitVec 8)
  /-- 10 SLOT_STATE: 0 empty, 1 writing, 2 committed. -/
  st : Nat
  deriving DecidableEq, Repr

/-- A block reset in progress (17 R611). -/
structure BlockReset where
  uid : Nat
  /-- 17 R610: the tenant that asked. -/
  tenant : Nat
  target : Nat
  tile : Nat
  index : Nat
  /-- 17 R611: 0 finishing started work, 1 stopping after the timeout, 2 measuring the tile's floor again. -/
  stage : Nat
  /-- 17 R611: the timeout ran out; items returned ABORTED. -/
  late : Bool
  items : Nat
  deriving DecidableEq, Repr

/-- Events of the telemetry list (03 event record). -/
structure Event where
  timeMs : Nat
  code : Nat
  tile : Nat
  quantity : Nat
  requested : BitVec 32
  applied : BitVec 32
  limit : Nat
  serial : Nat
  deriving DecidableEq, Repr

/-- Clock and the counters of the model itself. -/
structure Clock where
  /-- 64 bits. Microseconds since power-up of D0; the model's clock for 03 TIME_MS. Reset 0. -/
  nowUs : Nat
  /-- 03 TIME_MS counts from here: the last reset of reach A or B. Reset 0. -/
  resetUs : Nat
  /-- MODEL'S OWN field, not the spec's: how many free values have been drawn. Reset 0. -/
  freeCtr : Nat
  /-- MODEL'S OWN field: next number of a command, kernel, job, plan, stream, cache, collective. Reset 1. -/
  nextId : Nat
  deriving DecidableEq, Repr

/-- Addressed memory and its error state (10). -/
structure Memory where
  /-- 48-bit addresses, bytes. 10 R319 local address map; unlisted reads 0 (R338, R249, R341). Reset empty. -/
  cells : List (Nat × BitVec 8)
  /-- 10 R325 to R328 error state of HBM lines, by line number. Reset empty. -/
  lineErr : List (Nat × LineErr)
  /-- 10 R330 error state of SRAM words, by word number. Reset empty. -/
  wordErr : List (Nat × WordErr)
  /-- 10 R342: staging pages written, by page number (mapped pages). Reset empty. -/
  mapped : List Nat
  /-- 10 R346 staging pages that cannot be recovered, by page number. Reset empty. -/
  deadPages : List Nat
  /-- 10 R338: the module's own writes that wait for a memory group's initialisation, oldest first: error record source,
  address, bytes. Reset empty. -/
  waiting : List (Nat × Nat × List (BitVec 8))
  deriving DecidableEq, Repr

/-- Attachments, commands and tenants (02). -/
structure HostSide where
  /-- 02 R39 bring-up windows of the attachments, bytes by 0x1000*att + offset. Reset empty (zero). -/
  hub : List (Nat × BitVec 8)
  /-- 02: four attachments. -/
  atts : List Attachment
  /-- 02 R44: started commands that have not ended. Reset empty. -/
  running : List RunCmd
  /-- Output: bytes or value that the last host read returned, and whether it was poisoned (10 R329). Reset empty. -/
  readData : List (BitVec 8)
  readPoison : Bool
  /-- Output: MSI-X messages sent (attachment, vector), oldest first (02 R30, R31). Reset empty. -/
  msix : List (Nat × Nat)
  /-- 02 R51: tenants, ascending id. Reset empty. -/
  tenants : List Tenant
  /-- 8 bits. 02 R59: tiles being cleared. Reset 0. -/
  clearTiles : BitVec 8
  /-- 4 bits. 02 R59: tenants whose hub channels are being cleared. Reset 0. -/
  clearHub : BitVec 4
  /-- Output: writes to PCIe addresses of the shared store (attachment, address, bytes) (16 R570). Reset empty. -/
  pcieWrites : List (Nat × Nat × List (BitVec 8))
  deriving DecidableEq, Repr

/-- Jobs, kernels and block resets (02, 07, 17 R611). -/
structure Work where
  /-- 02: jobs of all tenants. Reset empty. -/
  jobs : List Job
  /-- 07: running kernels. Reset empty. -/
  kernels : List Kernel
  /-- 07 R246: signals on their way to another tile. Reset empty. -/
  remoteSig : List RemoteSig
  /-- 17 R611 block resets in progress. Reset empty. -/
  blockResets : List BlockReset
  deriving DecidableEq, Repr

/-- Caps, clamps, events and the telemetry page (03). -/
structure Telemetry where
  /-- W. 03 R101 accepted POWER_CAP. Reset 4,000. -/
  powerCap : Nat
  /-- 13 bits. 19 CARRIER_CAP.CAP_W. Reset 4,000. -/
  carrierCap : Nat
  /-- W. 03 R101; 19 CARRIER_CAP: the carrier cap in force since the last governor loop. Reset 4,000. -/
  capLive : Nat
  /-- 1 bit. 19 CARRIER_CAP.REJECTED. Reset 0. -/
  capRejected : Bool
  /-- mW, mV. 03 INPUT_MW, INPUT_MV. Reset 0. -/
  inputMw : Nat
  inputMv : Nat
  /-- 03 R109 clamp of MODULE_POWER in force. Reset none. -/
  clampPower : Option Clamp
  /-- 64 bits. 03 CLAMP_COUNT. Reset 0. -/
  clampCount : Nat
  /-- 64 bits. 03 EVENT_SERIAL. Reset 0. -/
  eventSerial : Nat
  /-- 03 newest 32 events, newest first. Reset empty. -/
  events : List Event
  /-- 17 R616, 10 persistent event log, newest first. Reset empty. -/
  persistent : List Event
  /-- 64 bits. 03 SEQ of the telemetry page. Reset 0. -/
  telemSeq : Nat
  /-- 4,096 bytes. 03 telemetry page. Reset empty (zero). -/
  telemPage : List (BitVec 8)
  /-- 1 bit. 03 R117 ALERT_N level. Reset 1 (pulled up, 17 R615). -/
  alertN : Bool
  /-- 1 bit. 17 R615 THERM_TRIP_N level. Reset 1 (pulled up). -/
  thermTripN : Bool
  /-- 32 bits. 19 SB_TELEM. Reset 0. -/
  sbTelem : BitVec 32
  /-- 8 bits. MODEL'S OWN field: tiles whose governor loop has run since the last step of R99. Reset 0xFF. -/
  loopSeen : BitVec 8
  /-- 03 R111 ageing ledger of the last 90 days: V_RATED of each of the eight tiles each hour, newest first. Reset empty. -/
  ageing : List (List Nat)
  /-- 03 ageing ledger before that: one entry a day for each tile, newest first. Reset empty. -/
  ageingDaily : List (List Nat)
  /-- 03 hourly entries of each tile written since manufacture. Reset 0. -/
  ageingCount : List Nat
  /-- 1 bit. 03 R112 the ledger can be read. Reset 1. -/
  ledgerOk : Bool
  deriving DecidableEq, Repr

/-- The Shuzil fabric (11). -/
structure Fabric where
  /-- 11 R350 fixed module ID. Reset none. -/
  modId : Option Nat
  /-- 11 R349 extents X, Y, Z of the loaded fabric section. Reset none. -/
  dims : Option (Nat × Nat × Nat)
  /-- 11 slot map, 64 entries. Reset empty. -/
  slotMap : List (Nat × Nat × Nat)
  /-- 16 bytes. 11 R364 fabric digest. Reset empty. -/
  fabDigest : List (BitVec 8)
  /-- 6 bits. 17 R615 SLOT_ID sampled at reset. Reset 0. -/
  slotId : Nat
  /-- 15 bits. 19 FABRIC_ORIGIN.ORIGIN. Reset 0. -/
  origin : BitVec 15
  /-- 1 bit. 19 FABRIC_ORIGIN.VALID. Reset 0. -/
  originValid : Bool
  /-- 1 bit. 11 R409 sluices open. Reset 0 (closed). -/
  sluices : Bool
  /-- 1 bit. 18 R622 bit 32 clear: router loopback passed. Reset 0. -/
  loopback : Bool
  /-- 11 six ports. -/
  ports : List Port
  /-- 11 R415 map entries: module ID, LIVE, generation; unlisted is live at generation 0. Reset empty. -/
  fmap : List (Nat × Bool × Nat)
  /-- 11 R418 map that routes are computed from. Reset empty. -/
  routeMap : List (Nat × Bool × Nat)
  /-- 16 bits. 11 R416 own generation (log region). Reset 0. -/
  ownGen : Nat
  /-- 1 bit. 11 R419: a neighbour has sent the whole map. Reset 0. -/
  mapWhole : Bool
  /-- 11 R418 time of the last MAP_CHANGED record. Reset none. -/
  mapEventUs : Option Nat
  /-- 16 bits each. 11 ESEQ next to send, by (dest, vc); unlisted 0. Reset empty. -/
  txEseq : List ((Nat × Nat) × Nat)
  /-- 11 R405 triples whose next packet carries RESYNC. Reset empty. -/
  resync : List (Nat × Nat)
  /-- 11 R403 receive triples. Reset empty. -/
  triples : List Triple
  /-- 11: packets delivered to the endpoint, not yet carried out, oldest first. Reset empty. -/
  rx : List Pkt
  /-- 11 R419: packets that wait for the whole map before their injection, oldest first. Reset empty. -/
  tx : List Pkt
  /-- 11 R386: requests admitted to the windows of a job that has ended, still in progress. Reset empty. -/
  granted : List Pkt
  /-- 11 R402 outstanding remote requests, at most 16,384. Reset empty. -/
  remotes : List Remote
  /-- 16 bits. 11 next TAG. Reset 0. -/
  nextTag : Nat
  /-- 11 8 MiB remote read buffer. Reset empty. -/
  readBuf : List BufLine
  /-- 11 R399 newest WGEN from each peer. Reset empty. -/
  peerGen : List (Nat × BitVec 32)
  /-- 32 bits. 11 R398 own write generation. Reset 0. -/
  wgen : BitVec 32
  /-- 32 bits. 11 PEER_FENCE count. Reset 0. -/
  fenceCount : BitVec 32
  deriving DecidableEq, Repr

/-- Groups and collectives (12). -/
structure Cascade where
  /-- 12 groups. Reset empty. -/
  groups : List Group
  /-- 12 R423 announcements for groups not created yet: gid, sender, digest. Reset empty. -/
  announced : List (Nat × Nat × List (BitVec 8))
  /-- 12 collectives outstanding or waiting, oldest first. Reset empty. -/
  colls : List CollRun
  /-- 12 R444 retain buffer. Reset empty. -/
  retain : List Retained
  /-- 12 R446 failed checks in a row, by sending module. Reset empty. -/
  pathFails : List (Nat × Nat)
  /-- 12 R446 fenced adder paths, sending modules. Reset empty. -/
  pathFenced : List Nat
  /-- 12 R445 RESIDUE_FAULT count. Reset 0. -/
  residueFaults : Nat
  /-- 16 R573: times of residue faults in microseconds, newest first, an hour of them. Reset empty. -/
  residueTimes : List Nat
  deriving DecidableEq, Repr

/-- The media engine, the input pipelines and serving (13, 14, 15). -/
structure Media where
  /-- 13 open streams. Reset empty. -/
  streams : List Stream
  /-- 13 R471 pictures in the 16 decode and 4 encode pipes. Reset empty. -/
  decPipes : List (Nat × PipeRun)
  encPipes : List (Nat × PipeRun)
  /-- 13 R504 feed order counter. Reset 0. -/
  feedOrder : Nat
  /-- 14 pipelines, one for each tenant. Reset empty. -/
  pipelines : List Pipeline
  /-- 15 KV caches. Reset empty. -/
  kvs : List Kv
  /-- 15 rollouts. Reset empty. -/
  rollouts : List Rollout
  deriving DecidableEq, Repr

/-- The reservoir and the shared store (10, 16). -/
structure Reservoir where
  /-- 10, 16 reservoir checkpoint slots 0 and 1. Reset empty. -/
  slot0 : CkptSlot
  slot1 : CkptSlot
  /-- 16 R568 SLOT_SEQ of the last commit. Reset 0. -/
  slotSeq : Nat
  /-- 16 R570 shared store contents as last written through the module (attachment, address, slot). Reset empty. -/
  shared : List (Nat × Nat × CkptSlot)
  /-- 10 R345 spare blocks in percent. Reset 100. -/
  sparePct : Nat
  /-- 10 reservoir health record counters. Reset 0 (since manufacture). -/
  hostBytes : Nat
  nandBytes : Nat
  refreshes : Nat
  badPages : Nat
  resSeq : Nat
  /-- 10 R348 STAGING_USED of each tenant's quarter as the record last gave it. Reset 0, four entries. -/
  resUsed : List Nat
  /-- 10 R348: time of the last rewrite of the record, in microseconds. Reset none. -/
  resUs : Option Nat
  /-- 1 bit. 10 R345 RESERVOIR_WEAR recorded. Reset 0. -/
  wearEvent : Bool
  /-- 1 bit. 10 R347 staging ready after start-up. Reset 0. -/
  stagingReady : Bool
  /-- 1 bit. 10 R347 the reservoir accepts no further write. Reset 0. -/
  resHold : Bool
  deriving DecidableEq, Repr

/-- The rails of 17's rails table. Those of a tile or a memory group carry its index. -/
inductive Rail
  | vaon | vioSb
  /-- VCORE_HUB_1 to VCORE_HUB_3: the domain D1 to D3. -/
  | vcoreHub (domain : Nat)
  | vanaSerdes | vlaser | vioPcie | vnand | vnandq
  | vcore (tile : Nat) | vsram (tile : Nat) | vpp (group : Nat) | vddc (group : Nat) | vddq (group : Nat)
  deriving DecidableEq, Repr

/-- Supplies, domains and reset (17). -/
structure Power where
  /-- 1 bit. 17 V_AUX good. Reset 1 (POWER_ON has asserted). -/
  auxGood : Bool
  /-- 1 bit. 17 R587 t_aux_main elapsed. Reset 0. -/
  auxHeld : Bool
  /-- 1 bit. 17 R588 V_MAIN good. Reset 0. -/
  mainGood : Bool
  /-- 1 bit. 17 R589 POWER_FAIL raised. Reset 0. -/
  powerFail : Bool
  /-- 20 bits. 17 R593 powered domains. Reset 0x00001 (D0). -/
  domains : BitVec 20
  /-- 17 R592 rails that are switched on, in the order they came on. Reset VAON and VIO_SB (D0). -/
  rails : List Rail
  /-- 17 R605 sources asserted now. Reset [powerOn]. -/
  sources : List Source
  /-- 17 R608 sources first seen in the sample that runs (DESIGN CHOICE, log entry 83). Reset none. -/
  sampled : List Source
  /-- 17 R605 widest reach of the episode in progress: true A, false B. Reset reach A. -/
  episode : Option Bool
  /-- 8 bits. 17 RESET_CAUSE.CAUSE. Reset 0x01. -/
  cause : Nat
  /-- 1 bit. 17 RESET_CAUSE.REACH. Reset 0. -/
  reach : Bool
  /-- 1 bit. 17 R596 in sleep. Reset 0. -/
  asleep : Bool
  /-- 02 R50 bring-up state; none before D2 is powered. Reset none (SB_STATUS 0x00). -/
  bringUp : BringUp
  /-- 2 bits. 19 SB_STATUS.STAGE. Reset 0. -/
  stage : Nat
  /-- 64 bits. 18 self-test failure bits. Reset 0. -/
  selftest : BitVec 64
  deriving DecidableEq, Repr

/-- Signed objects, counters and the sideband (18, 19). -/
structure Boot where
  /-- 18 stage 1, stage 2, configuration copies and selectors. Reset as manufactured (DESIGN CHOICE, log entry 4). -/
  stage1 : Copies
  stage2 : Copies
  config : Copies
  /-- 18 active key manifest object; empty for none. Reset as manufactured (DESIGN CHOICE, log entry 4). -/
  manifest : List (BitVec 8)
  /-- 1 bit. 18 R620 the manifest is in force. Reset 0. -/
  manifestOk : Bool
  /-- 5 x 32 bits. 18 R624 protected counters. Reset 0 (manufacture). -/
  counters : List Nat
  /-- 18 R625 write count of the protected block, and the last one the grotto saw. Reset 0 (manufacture). -/
  counterWrites : Nat
  writesSeen : Nat
  /-- 1 bit. 18 R630 identity seed reconstructed. Reset 0. -/
  seedOk : Bool
  /-- 7 bits. 19 R641 dynamic I3C address. Reset none. -/
  dynAddr : Option (BitVec 7)
  /-- 32 bits. 19 RECOVERY_OFFSET. Reset 0. -/
  recOffset : BitVec 32
  /-- 16,785,408 bytes. 19 recovery buffer; unlisted 0. Reset empty. -/
  recBuf : List (Nat × BitVec 8)
  /-- 2 bits. 19 RSTATE. Reset 0. -/
  rstate : Nat
  /-- 4 bits. 19 REASON. Reset 0. -/
  recReason : Nat
  /-- 1 bit each. 19 RECOVERY_CTRL.START and CLEAR, written and not yet taken (00 R11, R13). Reset 0. -/
  recStart : Bool
  recClear : Bool
  /-- 2 bits. 19 R636 PCIE_SPLIT of the configuration: 0 x16, 1 2x8, 2 4x4. Reset 0. -/
  split : Nat
  /-- 1 bit. 19 R637 PCIE_CLOCKING of the configuration: 0 common clock, 1 SRIS. Reset 0. -/
  clocking : Nat
  /-- 1 bit. 19 R637: REFCLK was present when an attachment last trained. Reset 0. -/
  refclk : Bool
  deriving DecidableEq, Repr

/-- The module. -/
structure State where
  /-- The commands that wait, first in first out. The block's own queue. Reset empty. -/
  pending : List Instr
  /-- 01: eight tiles. -/
  tiles : List Tile
  /-- 02 R73: hub mover, 32 channels. -/
  hubMover : Mover
  /-- Clock and the counters of the model itself. -/
  clk : Clock
  /-- Addressed memory and its error state (10). -/
  mem : Memory
  /-- Attachments, commands and tenants (02). -/
  host : HostSide
  /-- Jobs, kernels and block resets (02, 07, 17 R611). -/
  work : Work
  /-- Caps, clamps, events and the telemetry page (03). -/
  tel : Telemetry
  /-- The Shuzil fabric (11). -/
  fab : Fabric
  /-- Groups and collectives (12). -/
  cas : Cascade
  /-- The media engine, the input pipelines and serving (13, 14, 15). -/
  media : Media
  /-- The reservoir and the shared store (10, 16). -/
  resv : Reservoir
  /-- Supplies, domains and reset (17). -/
  pow : Power
  /-- Signed objects, counters and the sideband (18, 19). -/
  boot : Boot
  deriving DecidableEq, Repr

/-! ### Reset -/

/-- A ring after reset (02 ring register tables). -/
def Ring.reset : Ring :=
  { base := 0, replyBase := 0, enable := false, log2 := 4, tail := 0, head := 0, badTail := false,
    ownStall := false, baseDenied := false, window := true, taken := [], stalled := false }

/-- An attachment after reset (02 BAR0 register tables) (DESIGN CHOICE, log entry 2). -/
def Attachment.reset : Attachment :=
  { link := false, tenant := 0, fenceCount := 0, oob := false, orphanWarn := false,
    rings := List.replicate 8 Ring.reset, posted := [], prefetch := [], pendVec := [] }

/-- A mover channel after reset: disabled (DESIGN CHOICE, log entry 2). -/
def Chan.reset : Chan :=
  { enabled := false, stopping := false, vector := 0xFF, reqs := [], act := none }

/-- A mover after reset (DESIGN CHOICE, log entry 2). -/
def Mover.reset (n : Nat) : Mover :=
  { chans := List.replicate n Chan.reset, rr := List.replicate 8 0, events := [] }

/-- An issue path after reset (07 R236). -/
def Path.reset : Path :=
  { active := false, prog := [], pc := 0, loops := [], creg := List.replicate 16 0, ended := false,
    waited := false, ctl := none, mq := [], vq := [], xq := [], mSeq := 0, vSeq := 0, xSeq := 0,
    sigs := [], moves := [] }

/-- An operand descriptor that holds zero (05 R198) (DEDUCED, log entry 53). -/
def OpDesc.zero : OpDesc :=
  { base := 0, lines := 0, strided := false, stride := 0, scaleBase := 0, scaleStride := 0 }

/-- A slot context that holds zero (05 R198). -/
def SlotCtx.zero : SlotCtx :=
  { tensorId := 0, rowBase := 0, colBase := 0, kgBase := 0, x64Addr := 0, groups := 0,
    spillBound := none, spilled := false }

/-- A matrix core after reset: slots zero (07 R249), contexts and descriptors zero (05 R198), every slot the core's
own (05 R175) (DESIGN CHOICE, log entry 2). -/
def Core.reset : Core :=
  { acc := [], ctx := List.replicate 16 SlotCtx.zero, given := List.replicate 16 false,
    ods := List.replicate 32 OpDesc.zero, runs := [], rr := 0, checksumFaults := 0, faultTimes := [],
    lastFaultMs := 0, nonfiniteOut := 0, fenced := false }

/-- A vector engine after reset (06 vector engine state table) (DESIGN CHOICE, log entry 2). -/
def Engine.reset : Engine :=
  { v := [], m := List.replicate 16 (BitVec.allOnes 64) ++ List.replicate 112 0, sc := List.replicate 16 0, lrows := 16,
    lcols := 32, flags := 0, tensorId := 0, rowBase := 0, colBase := 0, regErr := [] }

/-- The policy of R103. -/
def Policy.reset : Policy := { mode := 1, marginAdd := 0, target := 2400 }

/-- The governor of a tile after reset (03 R94, R97 to R103; what the spec does not give is DESIGN CHOICE, log entry 3). -/
def Gov.reset : Gov :=
  { rail := 750, sentinelFloor := 550, heldFloor := none, floorSet := false, emergency := false,
    guard := 10, guardLedger := 10, vThermal := 850, vElectrical := 850, vCap := 850, pace := 64,
    policy := Policy.reset, applied := 750, beatMhz := 0, tj := 0, minSlack := 0, powerMw := 0, limit := 0,
    ceiling := 850, thermalOn := false, vRated := 720, floorFence := false, warned := false, eol := false, ageDue := false,
    emergCount := 0, emergTimes := [], regEccCe := 0, clampV := none, clampB := none, clampM := none }

/-- A memory group after reset: off (10 memory health record). -/
def MemGroup.reset : MemGroup :=
  { st := 0, seq := 0, ceLines := 0, ueEvents := 0, onDie := 0, passes := 0, scrubOff := 0, passHours := 24,
    nextHours := 24, retired := [], retTimes := [], degraded := false, corrected := [], log := [], serial := 0,
    recUs := none }

/-- No remote access in progress. -/
def UnitNet.none : UnitNet := { asked := [], got := [], todo := [], waiting := 0, err := 0 }

/-- A tile after reset (DESIGN CHOICE, log entry 2). -/
def Tile.reset : Tile :=
  { paths := List.replicate 16 Path.reset, cores := List.replicate 16 Core.reset,
    engines := List.replicate 16 Engine.reset, tok := [], tokOwner := [], kernel := none,
    mover := Mover.reset 64, xu := [], xuDone := none, xuNet := UnitNet.none, spw := [], spwDone := none, refBuf := [],
    ledger := [], gov := Gov.reset, mg := MemGroup.reset, selfFence := false }

/-- A router port after reset: DOWN (11 link states). -/
def Port.reset : Port :=
  { st := .down, width := 0, trained := 0, attempts := 0, partner := none, partnerGen := 0, ident := false, lane := 0, partnerW := 16,
    mapGot := [], txeqOut := [], mute := false, txSeq := 0,
    rxSeq := BitVec.allOnes 32, nak := false, replay := [], resend := [], txPart := [], txFrame := [], credits := List.replicate 32 256,
    shared := 8192, lent := List.replicate 32 0, used := List.replicate 32 0, cal := none, calUs := none, freed := List.replicate 32 0, naks := [], nakTimes := [], partSlots := [], inq := [], outq := [], arbRr := 0,
    arbVc7 := 0, lmsgIn := [], lmsgOut := [], txSet := [], rxSet := [] }

/-- A checkpoint slot that holds nothing (16 R568). -/
def CkptSlot.empty : CkptSlot := { commit := [], image := [], st := 0 }

/-- Copies of a type as they left manufacture (DESIGN CHOICE, log entry 4). -/
def Copies.factory (type : Nat) : Copies :=
  { copy0 := Config.factoryObject type 0, copy1 := Config.factoryObject type 1, preferred := 0, tryCopy := 0,
    tryPending := false, running := none, ranTry := false }

/-- The module right after reset: POWER_ON has asserted, an episode of reach A is in progress, only D0 is powered
(17 R600, R609). Nothing else has happened (DESIGN CHOICE, log entries 2, 4, 8, 34). -/
def State.reset : State :=
  { pending := []
    tiles := List.replicate 8 Tile.reset
    hubMover := Mover.reset 32
    clk := { nowUs := 0, resetUs := 0, freeCtr := 0, nextId := 1 }
    mem := { cells := [], lineErr := [], wordErr := [], mapped := [], deadPages := [], waiting := [] }
    host :=
      { hub := [], atts := List.replicate 4 Attachment.reset, running := [], readData := [],
        readPoison := false, msix := [], tenants := [], clearTiles := 0, clearHub := 0, pcieWrites := [] }
    work := { jobs := [], kernels := [], remoteSig := [], blockResets := [] }
    tel :=
      { powerCap := 4000, carrierCap := 4000, capLive := 4000, capRejected := false, inputMw := 0, inputMv := 0,
        clampPower := none, clampCount := 0, eventSerial := 0, events := [], persistent := [], telemSeq := 0,
        telemPage := [], alertN := true, thermTripN := true, sbTelem := 0, loopSeen := 0xFF,
        ageing := List.replicate 8 [], ageingDaily := List.replicate 8 [], ageingCount := List.replicate 8 0, ledgerOk := true }
    fab :=
      { modId := none, dims := none, slotMap := [], fabDigest := [], slotId := 0, origin := 0,
        originValid := false, sluices := false, loopback := false, ports := List.replicate 6 Port.reset,
        fmap := [], routeMap := [], ownGen := 0, mapWhole := false, mapEventUs := none, txEseq := [],
        resync := [], triples := [], rx := [], tx := [], granted := [], remotes := [], nextTag := 0, readBuf := [],
        peerGen := [], wgen := 0, fenceCount := 0 }
    cas :=
      { groups := [], announced := [], colls := [], retain := [], pathFails := [], pathFenced := [],
        residueFaults := 0, residueTimes := [] }
    media :=
      { streams := [], decPipes := [], encPipes := [], feedOrder := 0, pipelines := [], kvs := [],
        rollouts := [] }
    resv :=
      { slot0 := CkptSlot.empty, slot1 := CkptSlot.empty, slotSeq := 0, shared := [], sparePct := 100,
        hostBytes := 0, nandBytes := 0, refreshes := 0, badPages := 0, resSeq := 0, resUsed := [0, 0, 0, 0], resUs := none, wearEvent := false,
        stagingReady := false, resHold := false }
    pow :=
      { auxGood := true, auxHeld := false, mainGood := false, powerFail := false, domains := 1, rails := [.vaon, .vioSb],
        sources := [.powerOn], sampled := [], episode := some true, cause := 1, reach := false, asleep := false,
        bringUp := .none, stage := 0, selftest := 0 }
    boot :=
      { stage1 := Copies.factory 1, stage2 := Copies.factory 2, config := Copies.factory 3, manifest := Config.factoryObject 4 0,
        manifestOk := false, counters := [0, 0, 0, 0, 0], counterWrites := 0, writesSeen := 0, seedOk := false, dynAddr := none,
        recOffset := 0, recBuf := [], rstate := 0, recReason := 0, recStart := false, recClear := false, split := 0,
        clocking := 0, refclk := false } }

end Sys2Proof.Machine
end

