-- ==== Sys2Proof/Machine/Ops.lean ====
section
/-! DEFINITION. The named operations over the state that every family shares: places (tile, path, attachment, ring,
tenant), the local address map, memory with its error state, events, interrupt vectors, replies and the start and end
of host commands. -/

namespace Sys2Proof.Machine

/-- The first entry of a list that meets a test, changed by `f`. -/
def modFirst {α : Type} (q : α → Bool) (f : α → α) : List α → List α
  | [] => []
  | x :: r => if q x then f x :: r else x :: modFirst q f r

/-- The first entry of a list that meets a test, removed. -/
def dropFirst {α : Type} (q : α → Bool) : List α → List α
  | [] => []
  | x :: r => if q x then r else x :: dropFirst q r

/-! ### Places -/

/-- Tile `t` changed. -/
def State.onTile (s : State) (t : Nat) (f : Tile → Tile) : State := { s with tiles := modAt s.tiles t f }
/-- Issue path `p` of tile `t` changed. -/
def State.onPath (s : State) (t p : Nat) (f : Path → Path) : State :=
  s.onTile t fun x => { x with paths := modAt x.paths p f }
/-- Matrix core `c` of tile `t` changed. -/
def State.onCore (s : State) (t c : Nat) (f : Core → Core) : State :=
  s.onTile t fun x => { x with cores := modAt x.cores c f }
/-- Vector engine `c` of tile `t` changed. -/
def State.onEngine (s : State) (t c : Nat) (f : Engine → Engine) : State :=
  s.onTile t fun x => { x with engines := modAt x.engines c f }
/-- Margin governor of tile `t` changed. -/
def State.onGov (s : State) (t : Nat) (f : Gov → Gov) : State := s.onTile t fun x => { x with gov := f x.gov }
/-- Memory group `t` changed. -/
def State.onMg (s : State) (t : Nat) (f : MemGroup → MemGroup) : State := s.onTile t fun x => { x with mg := f x.mg }
/-- Mover changed: 0 to 7 a tile mover, 8 the hub mover (02 R73). -/
def State.onMover (s : State) (mv : Nat) (f : Mover → Mover) : State :=
  if mv = 8 then { s with hubMover := f s.hubMover } else s.onTile mv fun x => { x with mover := f x.mover }
/-- Mover channel changed. -/
def State.onChan (s : State) (mv ch : Nat) (f : Chan → Chan) : State :=
  s.onMover mv fun m => { m with chans := modAt m.chans ch f }
/-- Attachment changed. -/
def State.onAtt (s : State) (a : Nat) (f : Attachment → Attachment) : State :=
  { s with host := { s.host with atts := modAt s.host.atts a f } }
/-- Ring changed. -/
def State.onRing (s : State) (a r : Nat) (f : Ring → Ring) : State :=
  s.onAtt a fun x => { x with rings := modAt x.rings r f }
/-- Tenant changed. -/
def State.onTenant (s : State) (i : Nat) (f : Tenant → Tenant) : State :=
  { s with host := { s.host with tenants := modFirst (fun x => x.id == i) f s.host.tenants } }
/-- Job changed. -/
def State.onJob (s : State) (h : Nat) (f : Job → Job) : State :=
  { s with work := { s.work with jobs := modFirst (fun x => x.handle == h) f s.work.jobs } }
/-- Router port changed. -/
def State.onPort (s : State) (i : Nat) (f : Port → Port) : State :=
  { s with fab := { s.fab with ports := modAt s.fab.ports i f } }

/-- Mover `mv`. -/
def State.mover? (s : State) (mv : Nat) : Option Mover :=
  if mv = 8 then some s.hubMover else (s.tiles[mv]?).map (·.mover)
/-- Channel `ch` of mover `mv`. -/
def State.chan? (s : State) (mv ch : Nat) : Option Chan := (s.mover? mv).bind fun m => m.chans[ch]?
/-- Issue path. -/
def State.path? (s : State) (t p : Nat) : Option Path := (s.tiles[t]?).bind fun x => x.paths[p]?
/-- Matrix core. -/
def State.core? (s : State) (t c : Nat) : Option Core := (s.tiles[t]?).bind fun x => x.cores[c]?
/-- Vector engine. -/
def State.engine? (s : State) (t c : Nat) : Option Engine := (s.tiles[t]?).bind fun x => x.engines[c]?
/-- Ring. -/
def State.ring? (s : State) (a r : Nat) : Option Ring := (s.host.atts[a]?).bind fun x => x.rings[r]?
/-- Tenant by id. -/
def State.tenant? (s : State) (i : Nat) : Option Tenant := s.host.tenants.find? fun x => x.id == i
/-- Job by handle. -/
def State.job? (s : State) (h : Nat) : Option Job := s.work.jobs.find? fun x => x.handle == h
/-- Kernel by number. -/
def State.kernel? (s : State) (k : Nat) : Option Kernel := s.work.kernels.find? fun x => x.kid == k

/-- Milliseconds since the last reset of reach A or B (02 STATUS, 03 TIME_MS) (DEDUCED, log entry 91). -/
def State.timeMs (s : State) : Nat := (s.clk.nowUs - s.clk.resetUs) / 1000
/-- A new number for a command, kernel, job, plan, stream, cache or collective (DESIGN CHOICE, log entry 35). -/
def State.fresh (s : State) : Nat × State := (s.clk.nextId, { s with clk := { s.clk with nextId := s.clk.nextId + 1 } })
/-- The number of the next free value, and the state that has drawn it (DESIGN CHOICE, log entry 8). -/
def State.draw (s : State) : Nat × State :=
  (s.clk.freeCtr, { s with clk := { s.clk with freeCtr := s.clk.freeCtr + 1 } })

/-! ### Domains and issue (03 R94, R96, R107; 17 R589, R593) -/

/-- Whether power domain `d` is powered. -/
def State.domOn (s : State) (d : Nat) : Bool := bitOf s.pow.domains.toNat d
/-- Whether tile `t` is powered. -/
def State.tileOn (s : State) (t : Nat) : Bool := s.domOn (4 + t)
/-- Whether tile `t` issues instructions: powered, its first floor set, not stopped by an emergency, by FLOOR_EXCEEDED,
by POWER_FAIL or by a reset. -/
def State.issues (s : State) (t : Nat) : Bool :=
  s.tileOn t && !s.pow.powerFail && s.pow.episode.isNone &&
    (s.tiles[t]?).any fun x => x.gov.floorSet && !x.gov.emergency && !x.gov.floorFence
/-- Whether a tile is fenced: at self-test, or by FLOOR_EXCEEDED (05 R196; 18 R623; 03 R107). -/
def State.tileFenced (s : State) (t : Nat) : Bool := (s.tiles[t]?).any fun x => x.selfFence || x.gov.floorFence

/-- Whether a block accepts no new work, because its own block reset, or that of its tile, is in progress (17 R611):
targets 1 tile, 2 matrix core, 3 vector engine, 4 XU, 5 spillway engine, 6 tile mover group, 7 hub mover group, 8 media
engine, 9 input pipeline. -/
def State.blocked (s : State) (target tile index : Nat) : Bool :=
  s.work.blockResets.any fun b => decide (b.stage < 2) &&
    ((b.target == target && b.tile == tile && b.index == index) || (b.target == 1 && target ≤ 6 && b.tile == tile))
/-- Whether the channel group of a channel accepts no new work. -/
def State.chanBlocked (s : State) (mv ch : Nat) : Bool :=
  if mv = 8 then s.blocked 7 0 (ch / 8) else s.blocked 6 mv (ch / 8)

/-! ### Status codes (02 R48) -/

abbrev stOK : Nat := 0x00
abbrev stNotReady : Nat := 0x01
abbrev stBadOpcode : Nat := 0x02
abbrev stBadParam : Nat := 0x03
abbrev stNoResource : Nat := 0x04
abbrev stBusy : Nat := 0x05
abbrev stAborted : Nat := 0x06
abbrev stTimeout : Nat := 0x07
abbrev stExtentEmpty : Nat := 0x08
abbrev stLimit : Nat := 0x09
abbrev stCorrupt : Nat := 0x0A
abbrev stNonFinite : Nat := 0x0B
abbrev stResidue : Nat := 0x0C
abbrev stChecksum : Nat := 0x0D
abbrev stMemberLost : Nat := 0x0E
abbrev stAuthFailed : Nat := 0x0F
abbrev stClamped : Nat := 0x10
abbrev stMiscompare : Nat := 0x11
abbrev stUncorrectable : Nat := 0x12
abbrev stDenied : Nat := 0x13
abbrev stRngResync : Nat := 0x14

/-! ### Local address map (10 R319) -/

/-- Bytes of a memory group. -/
abbrev groupBytes : Nat := 0x4000000000
/-- End of HBM. -/
abbrev hbmEnd : Nat := 0x20000000000
/-- Staging quarter of tenant `n`, 1 to 4. -/
def quarterBase (n : Nat) : Nat := 0xE00000000000 + (n - 1) * 0x40000000000
/-- Bytes used of a staging quarter (10 R348 STAGING_CAPACITY). -/
abbrev quarterBytes : Nat := 2716000000000
/-- Tile window. -/
def tileWin (t : Nat) : Nat := 0xF00000000000 + t * 0x10000000
/-- Bytes of a cistern. -/
abbrev cisBytes : Nat := 0x4000000
/-- Bytes of a basin. -/
abbrev basBytes : Nat := 0x800000
/-- Address of a cistern offset. -/
def cisAddr (t off : Nat) : Nat := tileWin t + off
/-- Address of a basin offset. -/
def basAddr (t c off : Nat) : Nat := tileWin t + 0x4000000 + c * basBytes + off
/-- Offset of the memory health record in a tile window. -/
abbrev recOff : Nat := 0xC000000
/-- Address of the reservoir health record. -/
abbrev resRecAddr : Nat := 0xF10000000000
/-- Byte number the model gives to a word of accumulator memory, above every local address (no local address is given)
(DESIGN CHOICE, log entry 62). -/
def accAddr (t c slot i : Nat) : Nat := 0x1000000000000 + ((t * 16 + c) * 16 + slot) * 0x40000 + i

/-- What a local address names. -/
inductive Region where
  | hbm (t : Nat)
  | quarter (n : Nat)
  | tile (t off : Nat)
  | resRec
  | reserved
  deriving DecidableEq, Repr

/-- Region of a byte address (10 R319). -/
def regionOf (a : Nat) : Region :=
  if a < hbmEnd then .hbm (a / groupBytes)
  else if 0xE00000000000 ≤ a && a < 0xF00000000000 then
    let q := (a - 0xE00000000000) / 0x40000000000
    if (a - 0xE00000000000) % 0x40000000000 < quarterBytes then .quarter (q + 1) else .reserved
  else if 0xF00000000000 ≤ a && a < 0xF00080000000 then
    let t := (a - 0xF00000000000) / 0x10000000
    let o := (a - 0xF00000000000) % 0x10000000
    if o < recOff + 0x8000 then .tile t o else .reserved
  else if resRecAddr ≤ a && a < resRecAddr + 0x1000 then .resRec
  else .reserved

/-- Whether a range lies wholly in one region run of the map: HBM, one quarter, one tile window up to the end of its health
record, or the reservoir health record. -/
def oneRegion (a n : Nat) : Bool :=
  match regionOf a, regionOf (a + n - 1) with
  | .hbm _, .hbm _ => true
  | .quarter i, .quarter j => i == j
  | .tile t _, .tile u _ => t == u
  | .resRec, .resRec => true
  | _, _ => false

/-- Whether a range lies in a tenant's partition (10 R320, R321): `hub` says that the reader is the hub mover or the
input pipeline, `wr` that it writes. -/
def inPart (tn : Tenant) (hub wr : Bool) (a n : Nat) : Bool :=
  n == 0 ||
  (decide (a + n ≤ 0x1000000000000) && oneRegion a n &&
    match regionOf a with
    | .hbm t =>
      (List.range 8).all fun i => !(decide (t ≤ i) && decide (i ≤ (a + n - 1) / groupBytes)) || bitOf tn.tiles.toNat i
    | .quarter i => hub && i == tn.id
    | .tile t o => bitOf tn.tiles.toNat t && (!wr || decide (o + n ≤ recOff))
    | .resRec => hub && !wr
    | .reserved => false)

/-- Whether a write names one of a tenant's read-only records (10 R320). -/
def readOnlyRange (a : Nat) : Bool :=
  match regionOf a with
  | .tile _ o => decide (recOff ≤ o)
  | .resRec => true
  | _ => false

/-! ### Events (03 event record, R117) -/

/-- Whether the module drives its sideband outputs: from stage 2 on, outside an episode of reach A (17 R615). -/
def State.driven (s : State) : Bool := s.pow.stage == 2 && s.pow.episode != some true

/-- Records an event; any but POLICY_CLAMPED asserts ALERT_N while the contact is driven (03 R117; 17 R616). -/
def State.event (s : State) (code tile quantity requested applied limit : Nat) : State :=
  let n := s.tel.eventSerial + 1
  let e : Event := { timeMs := s.timeMs, code := code, tile := tile, quantity := quantity,
                     requested := BitVec.ofNat 32 requested, applied := BitVec.ofNat 32 applied,
                     limit := limit, serial := n }
  { s with tel := { s.tel with eventSerial := n, events := (e :: s.tel.events).take 32,
                               alertN := if code = 1 || !s.driven then s.tel.alertN else false } }

/-- The newest event goes to the persistent log too (17 R616; 03 R113). -/
def State.logged (s : State) : State :=
  { s with tel := { s.tel with persistent := s.tel.events.take 1 ++ s.tel.persistent } }
/-- Records a module-wide event in the persistent log too (17 R616). -/
def State.eventPersist (s : State) (code requested applied : Nat) : State :=
  (s.event code 0xFF 0 requested applied 0).logged

/-! ### Memory with its error state (10 R325 to R336) -/

/-- Bytes as stored, with no effect on error state. -/
def State.bytesAt (s : State) (a n : Nat) : Bytes := sgets 0 s.mem.cells a n
/-- One byte as stored (DEDUCED, log entry 36). -/
def State.byteAt (s : State) (a : Nat) : BitVec 8 := sget 0 s.mem.cells a
/-- Stores bytes, with no effect on error state (DEDUCED, log entries 36, 60). -/
def State.put (s : State) (a : Nat) (bs : Bytes) : State :=
  { s with mem := { s.mem with cells := sput 0 s.mem.cells a bs } }
/-- Little-endian number at an address. -/
def State.numAt (s : State) (a n : Nat) : Nat := leNat (s.bytesAt a n)

/-- Error state of lines replaced. -/
def State.setLineErr (s : State) (l : List (Nat × LineErr)) : State := { s with mem := { s.mem with lineErr := l } }
/-- Error state of words replaced. -/
def State.setWordErr (s : State) (l : List (Nat × WordErr)) : State := { s with mem := { s.mem with wordErr := l } }
/-- A table entry set or removed, keys rising. -/
def tset {α : Type} (l : List (Nat × α)) (k : Nat) (v : Option α) : List (Nat × α) :=
  l.filter (fun e => decide (e.1 < k)) ++ ((v.map fun x => (k, x)).toList ++ l.filter (fun e => decide (k < e.1)))

/-- Memory group of a line. -/
def groupOfLine (line : Nat) : Nat := line * 64 / groupBytes
/-- Stack of a line, 0 to 31 (10 R322). -/
def stackOfLine (line : Nat) : Nat :=
  let o := line * 64 % groupBytes
  4 * groupOfLine line + ((bits o 9 8 ^^^ bits o 17 16) ^^^ bits o 25 24)
/-- Pseudo channel of a line in its stack, 0 to 63 (10 R322). -/
def channelOfLine (line : Nat) : Nat := let o := line * 64 % groupBytes; bits o 15 10 ^^^ bits o 23 18
/-- Frame of a line in its group (10 R322). -/
def frameOfLine (line : Nat) : Nat := line * 64 % groupBytes / 0x200000

/-- Adds an error record to a group's log (10 error record). -/
def State.logLine (s : State) (line kind src symbol : Nat) : State :=
  s.onMg (groupOfLine line) fun g =>
    let r := toLE 8 s.timeMs ++ toLE 8 (line * 64) ++ toLE 1 kind ++ toLE 1 src ++ toLE 1 symbol ++
             toLE 1 (stackOfLine line) ++ zeros 4 ++ toLE 8 (g.serial + 1)
    { g with log := (r :: g.log).take 64, serial := g.serial + 1 }

/-- Inserts a number in a rising list. -/
def insertAsc (n : Nat) : List Nat → List Nat
  | [] => [n]
  | x :: r => if n < x then n :: x :: r else if n = x then x :: r else x :: insertAsc n r

/-- Retires a frame (10 R333, R334, R336). -/
def State.retire (s : State) (g f : Nat) : State :=
  match s.tiles[g]? with
  | none => s
  | some x =>
    if x.mg.retired.contains f then s
    else
      let s1 := (s.onMg g fun m => { m with retired := insertAsc f m.retired, retTimes := s.clk.nowUs :: m.retTimes }).event 0x0011 g 0 0 0 0
      if x.mg.retired.length + 1 = 512 then
        (s1.onMg g fun m => { m with degraded := true, st := 3 }).event 0x0012 g 0 0 0 0
      else s1

/-- A corrected read of a line (10 R327, R333). -/
def State.corrected (s : State) (src line sym : Nat) : State :=
  let g := groupOfLine line
  let s1 := (s.setLineErr (tset s.mem.lineErr line none)).logLine line 1 src sym
  let day := 86400000000
  let s2 := s1.onMg g fun m =>
    { m with ceLines := m.ceLines + 1
             corrected := (line, s.clk.nowUs) :: m.corrected.filter (fun e => decide (s.clk.nowUs ≤ e.2 + day)) }
  match s2.tiles[g]? with
  | none => s2
  | some x =>
    let same := x.mg.corrected.filter fun e => e.1 == line
    let inFrame := (x.mg.corrected.filter fun e => frameOfLine e.1 == frameOfLine line).map (·.1)
    if 2 ≤ same.length || 16 ≤ inFrame.eraseDups.length then s2.retire g (frameOfLine line) else s2

/-- An uncorrectable detection in a line (10 R327, R328, R333, R659). -/
def State.poison (s : State) (src line : Nat) : State :=
  let g := groupOfLine line
  let s1 := (s.setLineErr (tset s.mem.lineErr line (some .poisoned))).logLine line 2 src 0xFF
  let s2 := (s1.onMg g fun m => { m with ueEvents := m.ueEvents + 1 }).event 0x0010 g 0 0 0 0
  s2.retire g (frameOfLine line)

/-- Error state of a line. -/
def State.lineErrAt (s : State) (line : Nat) : Option LineErr := (s.mem.lineErr.find? fun e => e.1 == line).map (·.2)

/-- A read of one line (10 outcome of a line read): whether it delivers data. -/
def State.touchLine (s : State) (src line : Nat) : State × Bool :=
  match s.lineErrAt line with
  | none => (s, true)
  | some (.symbol i) => (s.corrected src line i, true)
  | some .uncorrectable => (s.poison src line, false)
  | some .poisoned => (s.logLine line 3 src 0xFF, false)

/-- Lines of a range that are not clean. -/
def State.badLines (s : State) (a n : Nat) : List Nat :=
  ((s.mem.lineErr.filter fun e => overlaps (e.1 * 64) 64 a n).map (·.1))
/-- Whether a range of tile memory meets a word with a double-bit error (10 R330). -/
def State.sramBad (s : State) (a n : Nat) : Bool :=
  s.mem.wordErr.any fun e => overlaps (e.1 * 8) 8 a n && e.2 == .double
/-- Whether a write of a range of tile memory changes only part of a word with a double-bit error (10 R330). -/
def State.partBad (s : State) (a n : Nat) : Bool :=
  s.mem.wordErr.any fun e => overlaps (e.1 * 8) 8 a n && !inside (e.1 * 8) 8 a n && e.2 == .double
/-- Whether a range of a staging quarter meets an unrecoverable page (10 R346). -/
def State.pageBad (s : State) (a n : Nat) : Bool := s.mem.deadPages.any fun p => overlaps (p * 4096) 4096 a n

/-- A read of any range: the data, or none where the reader receives UNCORRECTABLE. `src` is the error record's SOURCE
code (10 R327, R330, R346). -/
def State.load (s : State) (src a n : Nat) : State × Option Bytes :=
  if a < hbmEnd then
    let r := (s.badLines a n).foldl (fun (x : State × Bool) l => let y := x.1.touchLine src l; (y.1, x.2 && y.2)) (s, true)
    (r.1, if r.2 then some (s.bytesAt a n) else none)
  else if s.pageBad a n then
    ({ s with resv := { s.resv with badPages := s.resv.badPages + 1 } }, none)
  else if s.sramBad a n then (s, none)
  else (s, some (s.bytesAt a n))

/-- Words of tile memory wholly inside a stored range become clean; a single-bit error elsewhere in the range is
corrected by the read-modify-write (10 R330). -/
def State.cleanWords (s : State) (a n : Nat) : State :=
  s.setWordErr (s.mem.wordErr.filter fun e => !(inside (e.1 * 8) 8 a n || (overlaps (e.1 * 8) 8 a n && e.2 == .single)))

/-- The line step of a store: a whole line clears its error state, part of a line is a read-modify-write
(10 R327, R328). Whether the write of the line is carried out. -/
def State.storeLine (s : State) (src a n line : Nat) : State × Bool :=
  if inside (line * 64) 64 a n then (s.setLineErr (tset s.mem.lineErr line none), true)
  else match s.lineErrAt line with
    | none => (s, true)
    | some (.symbol i) => (s.corrected src line i, true)
    | some .uncorrectable => ((s.poison src line).logLine line 4 src 0xFF, false)
    | some .poisoned => (s.logLine line 4 src 0xFF, false)

/-- The part of a byte string at `a` that lies in `[lo, hi)`. -/
def slice (a : Nat) (bs : Bytes) (lo hi : Nat) : Nat × Bytes :=
  let b := max a lo
  (b, (bs.drop (b - a)).take (hi - b))

/-- Stores the pieces of `bs` that lie outside the refused lines. -/
def State.putExcept (s : State) (a : Nat) (bs : Bytes) : List Nat → Nat → State
  | [], from_ => let x := slice a bs from_ (a + bs.length); s.put x.1 x.2
  | l :: r, from_ => let x := slice a bs from_ (l * 64); (s.put x.1 x.2).putExcept a bs r (l * 64 + 64)

/-- WGEN counts a write that lands in an installed job window (11 R398). -/
def State.landed (s : State) (a n : Nat) : State :=
  if s.work.jobs.any (fun j => j.windows.any fun w => overlaps w.1 w.2.1 a n) then
    { s with fab := { s.fab with wgen := s.fab.wgen + 1 } }
  else s

/-- A write of any range: whether every line took it (10 R328, R330). Staging pages become mapped and readable. -/
def State.store (s : State) (src a : Nat) (bs : Bytes) : State × Bool :=
  if bs = [] then (s, true)
  else if a < hbmEnd then
    let r := (s.badLines a bs.length).foldl
      (fun (x : State × List Nat) l => let y := x.1.storeLine src a bs.length l; (y.1, if y.2 then x.2 else x.2 ++ [l])) (s, [])
    let w := if r.2 = [] then r.1.put a bs else r.1.putExcept a bs r.2 a
    let none_ := r.2.length == (a + bs.length - 1) / 64 + 1 - a / 64
    (if none_ then w else w.landed a bs.length, r.2.isEmpty)
  else
    match regionOf a with
    | .quarter _ =>
      let p0 := a / 4096
      let k := ceilDiv bs.length 4096
      let s1 := s.put a bs
      ({ s1 with
          mem := { s1.mem with
            mapped := (List.range k).foldl (fun m i => insertAsc (p0 + i) m) s1.mem.mapped
            deadPages := s1.mem.deadPages.filter fun p => !(decide (p0 ≤ p) && decide (p < p0 + k)) }
          resv := { s1.resv with hostBytes := s1.resv.hostBytes + bs.length,
                                 nandBytes := s1.resv.nandBytes + bs.length } }, true)
    | _ => ((s.cleanWords a bs.length).put a bs, true)

/-- Zeroes a range and clears its error state (10 R338, 02 R59) (DEDUCED, log entry 36). -/
def State.zeroRange (s : State) (a n : Nat) : State :=
  { s with mem := { s.mem with cells := sclear s.mem.cells a n
                               lineErr := s.mem.lineErr.filter fun e => !overlaps (e.1 * 64) 64 a n
                               wordErr := s.mem.wordErr.filter fun e => !overlaps (e.1 * 8) 8 a n } }

/-- Zeroes a range with writes of the module's own, which WGEN counts where they land in a job window (11 R398). -/
def State.zeroLanded (s : State) (a n : Nat) : State := (s.zeroRange a n).landed a n

/-- Loads every range that a unit or a command reads; false when a line or word cannot be read (10 R327, R330). -/
def State.loadAll (s : State) (src : Nat) (l : List (Nat × Nat)) : State × Bool :=
  l.foldl (fun x r => let y := x.1.load src r.1 r.2; (y.1, x.2 && y.2.isSome)) (s, true)
/-- What the writes of ranges do at the lines of which they change only a part: false when a line refuses its write
(10 R327, R328). -/
def State.partAll (s : State) (src : Nat) (l : List (Nat × Nat)) : State × Bool :=
  l.foldl (fun x r => ((x.1.badLines r.1 r.2).filter fun i => !inside (i * 64) 64 r.1 r.2).foldl
    (fun y i => let z := y.1.storeLine src r.1 r.2 i; (z.1, y.2 && z.2)) x) (s, true)

/-- Trims whole pages of a staging quarter (10 R342) (DEDUCED, log entries 36, 60). -/
def State.trim (s : State) (a n : Nat) : State :=
  { s with mem := { s.mem with
      cells := sclear s.mem.cells a n
      mapped := s.mem.mapped.filter fun p => !inside (p * 4096) 4096 a n
      deadPages := s.mem.deadPages.filter fun p => !inside (p * 4096) 4096 a n } }

/-- STAGING_USED of a tenant: bytes of its mapped pages (10 R348). -/
def State.stagingUsed (s : State) (tn : Nat) : Nat :=
  4096 * (s.mem.mapped.filter fun p => decide (quarterBase tn ≤ p * 4096) && decide (p * 4096 < quarterBase (tn + 1))).length

/-- Whether a memory group serves accesses (10 R338). -/
def State.groupReady (s : State) (t : Nat) : Bool := (s.tiles[t]?).any fun x => decide (2 ≤ x.mg.st)
/-- Whether a memory group is being initialised, so that accesses to it wait (10 R338). -/
def State.groupInit (s : State) (t : Nat) : Bool := (s.tiles[t]?).any fun x => x.mg.st == 1
/-- Whether a memory group is off (10 R339). -/
def State.groupOff (s : State) (t : Nat) : Bool := (s.tiles[t]?).all fun x => x.mg.st == 0
/-- Whether an HBM range meets a group for which `q` holds. -/
def hbmAny (q : Nat → Bool) (a n : Nat) : Bool :=
  decide (a < hbmEnd) && (List.range 8).any fun t => overlaps (t * groupBytes) groupBytes a n && q t

/-- A write of the module's own that waits while its memory group is initialised, behind the writes that wait already
(10 R338). -/
def State.storeSoon (s : State) (src a : Nat) (bs : Bytes) : State :=
  if hbmAny s.groupInit a bs.length then { s with mem := { s.mem with waiting := s.mem.waiting ++ [(src, a, bs)] } }
  else (s.store src a bs).1

/-- The writes that waited and whose memory is initialised now are carried out, oldest first (10 R338). -/
def State.flushStores (s : State) : State :=
  let l := s.mem.waiting
  l.foldl (fun st w => st.storeSoon w.1 w.2.1 w.2.2) { s with mem := { s.mem with waiting := [] } }

/-! ### Interrupt vectors (02 R30, R31) -/

/-- A pending vector set, each once. -/
def setPend (v : Nat) (l : List Nat) : List Nat := if l.contains v then l else l ++ [v]

/-- Sends MSI-X vector `v` of an attachment (DESIGN CHOICE, log entry 110). -/
def State.msi (s : State) (att v : Nat) : State := { s with host := { s.host with msix := s.host.msix ++ [(att, v)] } }

/-- Signals a vector for a tenant, or for an attachment when the command has no tenant, or sets its pending bit when
nothing can receive it (02 R31) (DESIGN CHOICE, log entry 110). -/
def State.signal (s : State) (att tenant v : Nat) : State :=
  match s.tenant? tenant with
    | none =>
      match s.host.atts[att]? with
      | some x => if x.link then s.msi att v else s.onAtt att fun y => { y with pendVec := setPend v y.pendVec }
      | none => s
    | some tn =>
      match tn.att.bind (fun a => (s.host.atts[a]?).map fun x => (a, x.link)) with
      | some (a, true) => s.msi a v
      | _ => s.onTenant tenant fun y => { y with pendVec := setPend v y.pendVec }

/-! ### Replies (02 R43, R44) -/

/-- The 32 bytes of a reply with OWN = 0. -/
def replyBytes (status : Nat) (opcode : BitVec 16) (seq : BitVec 32) (r0 r1 r2 : Nat) : Bytes :=
  toLE 1 status ++ toLE 1 0 ++ toLE 2 opcode.toNat ++ toLE 4 seq.toNat ++ toLE 8 r0 ++ toLE 8 r1 ++ toLE 8 r2

/-- Key of a byte of a bring-up window: packet slots at offset 0, reply slots at 0x400. -/
def hubKey (att off : Nat) : Nat := 0x1000 * att + off

/-- Writes a reply to its slot. -/
def State.reply (s : State) (loc : ReplyLoc) (bs : Bytes) : State :=
  match loc with
  | .hub att slot => { s with host := { s.host with hub := sput 0 s.host.hub (hubKey att (0x400 + 32 * slot)) bs } }
  | .hbm a => s.storeSoon 5 a bs

/-- Ends one running command: the reply unless TIMEOUT was already written, then its vector (02 R30, R43, R44). -/
def State.endCmd (s : State) (c : RunCmd) (status r0 r1 r2 : Nat) : State :=
  let s1 : State := { s with host := { s.host with running := s.host.running.filter fun x => x.uid != c.uid } }
  if c.timedOut then s1
  else
    let s2 := s1.reply c.loc (replyBytes status c.opcode c.seq r0 r1 r2)
    if c.irq then s2.signal c.att c.tenant c.ring else s2

/-- Ends every FENCE with no earlier command of its ring still running (02 mover commands). -/
def State.releaseFences (s : State) : State :=
  (s.host.running.filter fun c => c.wait == .fence).foldl (fun st f =>
    if st.host.running.any fun c => c.att == f.att && c.ring == f.ring && decide (c.uid < f.uid) then st
    else st.endCmd f 0 0 0 0) s

/-- Ends a running command, and the FENCE commands that waited for it. -/
def State.finish (s : State) (c : RunCmd) (status r0 r1 r2 : Nat) : State := (s.endCmd c status r0 r1 r2).releaseFences

/-- Ends every running command that waits for `w`. -/
def State.finishWait (s : State) (w : Wait) (status r0 r1 r2 : Nat) : State :=
  (s.host.running.filter fun c => c.wait == w).foldl (fun st c => st.finish c status r0 r1 r2) s

/-- Ends the running command with number `uid`. -/
def State.finishUid (s : State) (uid status r0 r1 r2 : Nat) : State :=
  match s.host.running.find? fun c => c.uid == uid with
  | some c => s.finish c status r0 r1 r2
  | none => s

/-! ### Starting a command (02 R35, R36, R42, R45, R49, R50) -/

/-- A command being started: where it came from, the tenant bound to its attachment, and its parameters, byte 0 of
which is packet offset 16. -/
structure Cmd where
  uid : Nat
  att : Nat
  ring : Nat
  tenant : Nat
  seq : BitVec 32
  par : Bytes
  deriving DecidableEq, Repr

/-- How a started command stands after its start. -/
inductive CmdEnd where
  | done (status r0 r1 r2 : Nat)
  | wait (w : Wait)
  deriving DecidableEq, Repr

/-- No status: what a command's start gives while memory that it needs is being initialised; the packet stays where it is
and starts later (10 R338). -/
abbrev stWait : Nat := 0x100
/-- Whether a start has to wait for memory. -/
def CmdEnd.waits : CmdEnd → Bool
  | .done st _ _ _ => st == stWait
  | .wait _ => false
/-- A reply with a status alone. -/
def CmdEnd.st (status : Nat) : CmdEnd := .done status 0 0 0

/-- How a command carries its parameters: inline (an extended block then stands for bytes 16 to 63 of the packet), or
in an extended block of a given length. -/
inductive ParKind where
  | inline
  | block (len : Nat)
  deriving DecidableEq, Repr

/-- Parameter field of `n` bytes at packet offset `off` of a command. -/
def Cmd.f (c : Cmd) (off n : Nat) : Nat := fld c.par (off - 16) n
/-- Whether the packet bytes from `off` on, `n` of them, are zero. -/
def Cmd.z (c : Cmd) (off n : Nat) : Bool := zeroAt c.par (off - 16) n

/-- Bring-up state in which every command is accepted (02 R50). -/
def State.ready (s : State) : Bool := decide (s.pow.bringUp = .ready)

/-- Whether an earlier command of the ring has not completed (02 R36). -/
def State.ringBusy (s : State) (att ring : Nat) : Bool := s.host.running.any fun c => c.att == att && c.ring == ring

/-- Parameters of a packet: status other than OK, or the bytes (02 R9, R42). `tn` is the bound tenant. The spec does not say
what a block holds for a command whose table gives inline offsets: it stands for packet bytes 16 to 63, its bytes from the
48th on must be zero, a shorter one is filled with zeros; a command whose parameters need a block gets BAD_PARAM without
EXT (DESIGN CHOICE, log entry 111). -/
def State.params (s : State) (kind : ParKind) (tn : Option Tenant) (bs : Bytes) : State × Nat × Bytes :=
  let ext := bitOf (fld bs 2 2) 0
  if 8 ≤ fld bs 2 2 || fld bs 10 2 != 0 || (ext && !zeroAt bs 28 36) then (s, stBadParam, [])
  else if ext then
    let a := fld bs 16 8
    let n := fld bs 24 4
    if a % 8 ≠ 0 || n % 8 ≠ 0 || n < 8 || 65536 < n then (s, stBadParam, [])
    else if !(tn.any fun t => inPart t false false a n) then (s, stDenied, [])
    else
      let r := s.load 5 a n
      match r.2 with
      | none => (r.1, stUncorrectable, [])
      | some blk =>
        match kind with
        | .inline => if zeroAt blk 48 n then (r.1, stOK, padTo 48 blk) else (r.1, stBadParam, [])
        | .block len => if n = len then (r.1, stOK, blk) else (r.1, stBadParam, [])
  else match kind with
    | .inline => (s, stOK, fldBytes bs 16 48)
    | .block _ => (s, stBadParam, [])

/-- Opcodes the opcode table assigns (02 opcode groups). -/
def assignedOpcodes : List Nat :=
  [0x0001, 0x0002, 0x0003, 0x0004, 0x0005, 0x0006, 0x0101, 0x0102, 0x0103, 0x0104, 0x0105, 0x0106, 0x0107,
   0x0201, 0x0202, 0x0203, 0x0204, 0x0205, 0x0206, 0x0301, 0x0302, 0x0303, 0x0304, 0x0401, 0x0402, 0x0403, 0x0404,
   0x0501, 0x0502, 0x0503, 0x0504, 0x0601, 0x0602, 0x0603, 0x0604, 0x0701, 0x0702, 0x0703, 0x0704, 0x0705,
   0x0801, 0x0802, 0x0803, 0x0901, 0x0902, 0x0903, 0x0A01, 0x0A02, 0x0A03, 0x0A04]

/-- Checks of R49 before the command's own: bring-up, binding to tenant `bound`, then R9 and R42. Status OK gives the
parameters. -/
def State.checkCmd (s : State) (op : Nat) (kind : ParKind) (bound : Nat) (bs : Bytes) : State × Nat × Bytes :=
  if !s.ready && !(op == 1 || op == 2) then (s, stNotReady, [])
  else if bound = 0 && !(op == 1 || op == 2 || op == 3) then (s, stDenied, [])
  else if fld bs 8 2 ≠ bound then (s, stDenied, [])
  else s.params kind (s.tenant? bound) bs

/-- A packet that stands first in its ring: the tenant that has left the attachment and whose ring it is, or none for the
attachment's own ring. -/
structure Head where
  parked : Option Nat
  tk : Taken
  deriving DecidableEq, Repr

/-- The packets that can start next at ring `ring` of attachment `att`: the one of the ring itself, then those taken there for
a tenant that is now unbound, which complete into their reply slots all the same (R57). -/
def State.heads (s : State) (att ring : Nat) : List Head :=
  (((s.ring? att ring).bind (·.taken.head?)).map fun k => ({ parked := none, tk := k } : Head)).toList ++
    s.host.tenants.filterMap fun t =>
      if t.att.isNone && t.lastAtt == att && t.id != 0 then
        ((t.saved[ring]?).bind (·.taken.head?)).map fun k => { parked := some t.id, tk := k }
      else none

/-- The attachment number of a packet's ring: 4 + id where its tenant is unbound. -/
def Head.att (h : Head) (att : Nat) : Nat := (h.parked.map (4 + ·)).getD att
/-- The tenant of a packet. -/
def State.headTenant (s : State) (h : Head) (att : Nat) : Nat := h.parked.getD (((s.host.atts[att]?).map (·.tenant)).getD 0)
/-- Whether an ORDERED flag holds a packet behind a running command of its ring (R36). -/
def State.heldBack (s : State) (h : Head) (att ring : Nat) : Bool := bitOf (fld h.tk.bytes 2 2) 2 && s.ringBusy (h.att att) ring

/-- Whether the extended block of a packet lies in memory that is being initialised, so that the packet waits (10 R338). -/
def State.paramsWait (s : State) (h : Head) : Bool :=
  bitOf (fld h.tk.bytes 2 2) 0 && hbmAny s.groupInit (fld h.tk.bytes 16 8) (fld h.tk.bytes 24 4)

/-- Takes a packet off its ring. -/
def State.popTaken (s : State) (h : Head) (att ring : Nat) : State :=
  match h.parked with
  | none => s.onRing att ring fun r => { r with taken := r.taken.drop 1 }
  | some i => s.onTenant i fun t => { t with saved := modAt t.saved ring fun r => { r with taken := r.taken.drop 1 } }

/-- The first packet of the ring whose opcode is `op` and that no ORDERED flag holds back: the command it starts, its
parameters, the state with it taken off and its checks done, and their status (R36, R49, R57).
None: nothing starts (DESIGN CHOICE, log entry 1). -/
def State.taking (s : State) (op : Nat) (kind : ParKind) (att ring : Nat) : Option (RunCmd × Cmd × State × Nat) :=
  match (s.heads att ring).find? fun h => fld h.tk.bytes 0 2 == op && !s.heldBack h att ring && !s.paramsWait h with
  | none => none
  | some h =>
    let b := h.tk.bytes
    let bound := s.headTenant h att
    let rc : RunCmd :=
      { uid := h.tk.uid, att := h.att att, ring := ring, loc := h.tk.loc, opcode := BitVec.ofNat 16 (fld b 0 2),
        seq := BitVec.ofNat 32 (fld b 4 4), irq := bitOf (fld b 2 2) 1, tenant := bound,
        timeoutMs := fld b 12 4, timedOut := h.tk.timedOut, wait := .fence }
    let ck := (s.popTaken h att ring).checkCmd op kind bound b
    some (rc, { uid := rc.uid, att := rc.att, ring := ring, tenant := bound, seq := rc.seq, par := ck.2.2 }, ck.1, ck.2.1)

/-- A started command replies, or joins the running commands and waits. -/
def State.ends (s : State) (rc : RunCmd) : CmdEnd → State
  | .done st r0 r1 r2 => s.finish rc st r0 r1 r2
  | .wait w => { s with host := { s.host with running := s.host.running ++ [{ rc with wait := w }] } }

/-- Starts the ring's next taken packet when its opcode is `op`: the checks of R49, then `body`, then the reply, or the
entry in the table of running commands; while memory it needs is being initialised it does not start (10 R338)
(DESIGN CHOICE, log entry 1). -/
def State.startCmd (s : State) (op : Nat) (kind : ParKind) (att ring : Nat)
    (body : Cmd → State → State × CmdEnd) : State :=
  match s.taking op kind att ring with
  | none => s
  | some (rc, c, s1, st) =>
    if st ≠ stOK then s1.ends rc (.st st)
    else if (body c s1).2.waits then s
    else (body c s1).1.ends rc (body c s1).2

end Sys2Proof.Machine
end

