-- ==== Sys2Proof/Machine/Rand.lean ====
section
/-! DEFINITION. The two generators of fixed bits that the spec names: SHAKE256 (18; the function itself is FIPS 202's,
PRESUMED, log entry 9) and Philox4x32-10 (14 R523), and the random bits of a stochastic rounding (04 R132). -/

namespace Sys2Proof.Machine

/-- Round constants of Keccak-f[1600]. -/
def keccakRC : List (BitVec 64) := [0x1, 0x8082, 0x800000000000808a, 0x8000000080008000, 0x808b, 0x80000001, 0x8000000080008081, 0x8000000000008009, 0x8a, 0x88, 0x80008009, 0x8000000a, 0x8000808b, 0x800000000000008b, 0x8000000000008089, 0x8000000000008003, 0x8000000000008002, 0x8000000000000080, 0x800a, 0x800000008000000a, 0x8000000080008081, 0x8000000000008080, 0x80000001, 0x8000000080008008]
/-- Rotation of each lane, lane `x + 5 y`. -/
def keccakRot : List Nat := [0, 1, 62, 28, 27, 36, 44, 6, 55, 20, 3, 10, 43, 25, 39, 41, 45, 15, 21, 8, 18, 2, 61, 56, 14]

/-- Lane of a Keccak state. -/
def lane (a : List (BitVec 64)) (x y : Nat) : BitVec 64 := a.getD (x % 5 + 5 * (y % 5)) 0

/-- One round of Keccak-f[1600]. -/
def keccakRound (a : List (BitVec 64)) (rc : BitVec 64) : List (BitVec 64) :=
  let c := (List.range 5).map fun x => lane a x 0 ^^^ lane a x 1 ^^^ lane a x 2 ^^^ lane a x 3 ^^^ lane a x 4
  let d := (List.range 5).map fun x => c.getD ((x + 4) % 5) 0 ^^^ (c.getD ((x + 1) % 5) 0).rotateLeft 1
  let t := (List.range 25).map fun i => a.getD i 0 ^^^ d.getD (i % 5) 0
  let b := (List.range 25).map fun i =>
    let x := i % 5
    let y := i / 5
    let j := (x + 3 * y) % 5 + 5 * x
    (t.getD j 0).rotateLeft (keccakRot.getD j 0)
  let e := (List.range 25).map fun i =>
    lane b i (i / 5) ^^^ (~~~ lane b (i + 1) (i / 5) &&& lane b (i + 2) (i / 5))
  match e with
  | x :: r => (x ^^^ rc) :: r
  | [] => []

/-- Keccak-f[1600] (PRESUMED, log entry 9). -/
def keccakF (a : List (BitVec 64)) : List (BitVec 64) := keccakRC.foldl keccakRound a

/-- A block of 136 bytes XORed into a state, then permuted. -/
def absorb (a : List (BitVec 64)) (blk : Bytes) : List (BitVec 64) :=
  keccakF ((List.range 25).map fun i => a.getD i 0 ^^^ BitVec.ofNat 64 (fld blk (8 * i) 8))

/-- First 136 bytes of a state. -/
def squeezeBlock (a : List (BitVec 64)) : Bytes := (a.take 17).flatMap fun w => toLE 8 w.toNat

/-- `n` blocks of output. -/
def squeeze : Nat → List (BitVec 64) → Bytes
  | 0, _ => []
  | n + 1, a => squeezeBlock a ++ squeeze n (keccakF a)

/-- The message padded for SHAKE: 0x1F, zeros, 0x80 in the last byte. -/
def shakePad (m : Bytes) : Bytes :=
  let k := 136 - m.length % 136
  if k = 1 then m ++ [0x9F] else m ++ [0x1F] ++ zeros (k - 2) ++ [0x80]

/-- SHAKE256 of a byte string, `n` bytes of output (PRESUMED, log entry 9). -/
def shake256 (m : Bytes) (n : Nat) : Bytes :=
  let p := shakePad m
  let a := (List.range (p.length / 136)).foldl (fun a i => absorb a ((p.drop (136 * i)).take 136)) (List.replicate 25 0)
  (squeeze (ceilDiv n 136) a).take n

/-- One round of Philox4x32 (14 random streams). -/
def philoxRound (x : (Nat × Nat) × (Nat × Nat × Nat × Nat)) : (Nat × Nat) × (Nat × Nat × Nat × Nat) :=
  let k := x.1
  let c := x.2
  let p0 := 0xD2511F53 * c.1
  let p1 := 0xCD9E8D57 * c.2.2.1
  (((k.1 + 0x9E3779B9) % 2 ^ 32, (k.2 + 0xBB67AE85) % 2 ^ 32),
   ((p1 / 2 ^ 32) ^^^ c.2.1 ^^^ k.1, p1 % 2 ^ 32, (p0 / 2 ^ 32) ^^^ c.2.2.2 ^^^ k.2, p0 % 2 ^ 32))

/-- Philox4x32-10: the four output words of a key and a counter, each counter word modulo 2^32 (14 R523)
(PRESUMED, log entry 9). -/
def philox (k0 k1 c0 c1 c2 c3 : Nat) : Nat × Nat × Nat × Nat :=
  ((List.range 10).foldl (fun x _ => philoxRound x)
    ((k0 % 2 ^ 32, k1 % 2 ^ 32), (c0 % 2 ^ 32, c1 % 2 ^ 32, c2 % 2 ^ 32, c3 % 2 ^ 32))).2

/-- Key of a random stream (14 R523). -/
def streamKey (seed stream : Nat) : Nat × Nat :=
  let d := shake256 (toLE 8 seed ++ toLE 8 stream) 8
  (fld d 0 4, fld d 4 4)

/-- Key of the stochastic-rounding stream of a step. -/
def srKey (seed step : Nat) : Nat × Nat := streamKey seed (0x0100000000000000 + step)

/-- The 16 random bits of a stochastic rounding (04 R132; 14 R523). -/
def srBits (key : Nat × Nat) (kg col row tensor : Nat) : Nat := (philox key.1 key.2 kg col row tensor).1 % 2 ^ 16

/-- A draw of a rollout on a sequence: its stream is named by the sequence's ROLLOUTS (15 R550). -/
def rollDraw (seed rollouts position seq draw : Nat) : Nat × Nat × Nat × Nat :=
  let k := streamKey seed (0x0300000000000000 + rollouts)
  philox k.1 k.2 position seq draw 0

/-- Where a kernel's roundings take their random bits: the key of its step's stream, its job's seed, and the sequences of
the rollout it runs for, each with its ROLLOUTS. -/
structure Rng where
  key : Nat × Nat
  seed : Nat
  roll : List (Nat × Nat)
  deriving DecidableEq, Repr

/-- The 16 random bits of a rounding: of the step's stream, or, in a rollout, of the rollout's (04 R132; 15 R550)
(DESIGN CHOICE, log entry 122). -/
def Rng.bits (g : Rng) (kg col row tensor : Nat) : Nat :=
  match g.roll with
  | [] => srBits g.key kg col row tensor
  | e :: r =>
    let x := Config.rollPlace kg col row tensor
    let q := (e :: r).getD (x.1 % (r.length + 1)) e
    (rollDraw g.seed q.2 x.2.1 q.1 x.2.2).1 % 2 ^ 16

end Sys2Proof.Machine
end

