-- ==== Sys2Proof/Machine/BootOps.lean ====
section
/-! DEFINITION. Signed objects and their verification (18 R617, R618), key manifests (18 R625, R626), the copies of the boot and
configuration types (18 R619, R628) and the boot chain up to the load of the configuration (18 R620 to R622). -/

namespace Sys2Proof.Machine

/-! ### Signed objects (18 R617, R618) -/

/-- Bytes of the header of a signed object. -/
abbrev objHeader : Nat := 8192
/-- BODY_BYTES of an object. -/
def objBodyBytes (b : Bytes) : Nat := fld b 16 8
/-- SVN of an object; the version of a key manifest. -/
def objSvn (b : Bytes) : Nat := fld b 8 4
/-- SIGNER_KEY. -/
def objKey (b : Bytes) : Bytes := fldBytes b 96 1952
/-- Body. -/
def objBody (b : Bytes) : Bytes := b.drop objHeader
/-- Measurement: the 512-bit SHAKE256 digest of header bytes 0 to 2,047 (R617). -/
def objMeasure (b : Bytes) : Bytes := shake256 (b.take 2048) 64
/-- Context string: "IGLAS" and one byte (R617, R633). -/
def iglas (type : Nat) : Bytes := [0x49, 0x47, 0x4C, 0x41, 0x53] ++ toLE 1 type
/-- Limit of BODY_BYTES. -/
def bodyLimit (type : Nat) : Nat :=
  if type = 1 then 0x1000000 else if type = 2 then 0x10000000 else if type = 3 then 0x100000 else 0x10000
/-- Position of the anti-rollback counter of a type (R624). -/
def counterOf (type : Nat) : Nat := type - 1

/-- Number of keys of a manifest body. -/
def keyCount (body : Bytes) : Nat := fld body 1 1
/-- Entry `i` of a manifest body: key digest and role. -/
def keyEntry (body : Bytes) (i : Nat) : Bytes × Nat := (fldBytes body (8 + 40 * i) 32, fld body (40 + 40 * i) 1)
/-- Form of a manifest body: at most eight keys, reserved bits and bytes zero, nothing behind the entries. -/
def manifestForm (body : Bytes) : Bool :=
  decide (keyCount body ≤ 8) && body.length == 8 + 40 * keyCount body && decide (fld body 0 1 < 16) && zeroAt body 2 6 &&
    (List.range (keyCount body)).all fun i => decide ((keyEntry body i).2 < 8) && zeroAt body (41 + 40 * i) 7

/-- Check 1: the format (DEDUCED, log entry 31). -/
def objForm (type : Nat) (b : Bytes) : Bool :=
  decide (objHeader ≤ b.length) && fld b 0 4 == 0x56474F31 && fld b 4 1 == type && fld b 5 1 == 1 &&
    decide (objBodyBytes b ≤ bodyLimit type) && b.length == objHeader + objBodyBytes b && zeroAt b 6 2 && zeroAt b 12 4 &&
    zeroAt b 5357 2835 && (type != 4 || manifestForm (objBody b))

/-- Role bit that covers a type (key manifests). -/
def roleBit (type : Nat) : Nat := if type ≤ 2 then 0 else if type = 3 then 1 else 2

/-- Check 2: whether a key may sign a type under a manifest body, none when no manifest is in force. -/
def keyMaySign (manifest : Option Bytes) (type : Nat) (key : Bytes) : Bool :=
  let d := shake256 key 32
  ((List.range 4).any fun i => Config.rootSlot i == d && !(manifest.any fun m => bitOf (fld m 0 1) i)) ||
    manifest.any fun m => (List.range (keyCount m)).any fun i => (keyEntry m i).1 == d && bitOf (keyEntry m i).2 (roleBit type)

/-- R618 under a manifest and a least SVN: 0 when every check passes, else the reason of the first that fails. -/
def objReason (manifest : Option Bytes) (least type : Nat) (b : Bytes) : Nat :=
  if !objForm type b then 1
  else if !keyMaySign manifest type (objKey b) then 2
  else if !(fld b 24 8 == 0 || fld b 24 8 == Config.serial.toNat) then 3
  else if !Config.mldsaVerify (objKey b) (objMeasure b) (iglas type) (fldBytes b 2048 3309) then 4
  else if shake256 (objBody b) 64 != fldBytes b 32 64 then 5
  else if objSvn b < least then 6
  else 0

/-- Body of the manifest in force. -/
def State.manifest? (s : State) : Option Bytes := if s.boot.manifestOk then some (objBody s.boot.manifest) else none
/-- Anti-rollback counter of a type. -/
def State.counter (s : State) (type : Nat) : Nat := s.boot.counters.getD (counterOf type) 0
/-- R618 for an object of a copied type. -/
def State.verify (s : State) (type : Nat) (b : Bytes) : Nat := objReason s.manifest? (s.counter type) type b
/-- A counter raised; none ever decreases (R624). Each write adds 1 to the write count, which the grotto sees (R625). -/
def State.raiseCounter (s : State) (i v : Nat) : State :=
  { s with boot := { s.boot with counters := modAt s.boot.counters i fun n => max n v,
                                 counterWrites := s.boot.counterWrites + 1, writesSeen := s.boot.counterWrites + 1 } }

/-- Bytes that the reservoir took in one of its grotto regions (10 R348). -/
def State.resWrote (s : State) (n : Nat) : State :=
  { s with resv := { s.resv with hostBytes := s.resv.hostBytes + n, nandBytes := s.resv.nandBytes + n } }

/-! ### Copies (18 R619, R628) -/

/-- Copies of a type. -/
def State.copies (s : State) (type : Nat) : Copies :=
  if type = 1 then s.boot.stage1 else if type = 2 then s.boot.stage2 else s.boot.config
/-- Copies of a type changed. -/
def State.onCopies (s : State) (type : Nat) (f : Copies → Copies) : State :=
  if type = 1 then { s with boot := { s.boot with stage1 := f s.boot.stage1 } }
  else if type = 2 then { s with boot := { s.boot with stage2 := f s.boot.stage2 } }
  else { s with boot := { s.boot with config := f s.boot.config } }
/-- Object of a copy. -/
def Copies.obj (c : Copies) (i : Nat) : Bytes := if i = 0 then c.copy0 else c.copy1
/-- A copy replaced. -/
def Copies.setObj (c : Copies) (i : Nat) (b : Bytes) : Copies := if i = 0 then { c with copy0 := b } else { c with copy1 := b }
/-- The copy that is not running; where none runs, the one that is not PREFERRED (DEDUCED, log entry 31). -/
def Copies.spare (c : Copies) : Nat := 1 - c.running.getD c.preferred
/-- The object that runs. -/
def Copies.runs (c : Copies) : Bytes := (c.running.map c.obj).getD []
/-- Candidates in order: TRY when it is pending, PREFERRED, the other (R619). -/
def Copies.order (c : Copies) : List Nat :=
  ((if c.tryPending then [c.tryCopy] else []) ++ [c.preferred, 1 - c.preferred]).eraseDups

/-- Loads a copied type (R619): TRY_PENDING is cleared, the first candidate that passes runs; the bits of the candidates that
fail, from bit `2 (type − 1)` of the self-test bits. -/
def State.loadType (s : State) (type : Nat) : State :=
  let c := s.copies type
  let bad := c.order.takeWhile fun i => s.verify type (c.obj i) != 0
  let run := c.order.find? fun i => s.verify type (c.obj i) == 0
  let s0 := if c.tryPending then s.resWrote Config.recordBytes else s
  let s1 := s0.onCopies type fun x =>
    { x with tryPending := false, running := run, ranTry := c.tryPending && run == some c.tryCopy }
  { s1 with pow := { s1.pow with
      selftest := s1.pow.selftest ||| BitVec.ofNat 64 ((bad.map fun i => 2 ^ (2 * (type - 1) + i)).sum) } }

/-- Sets self-test failure bits. -/
def State.failBits (s : State) (b : Nat) : State :=
  { s with pow := { s.pow with selftest := s.pow.selftest ||| BitVec.ofNat 64 b } }
/-- The stage that runs (19 SB_STATUS.STAGE). -/
def State.atStage (s : State) (n : Nat) : State := { s with pow := { s.pow with stage := n } }

/-! ### The boot chain (18 R620, R621) -/

/-- Step 6, its load: the configuration, its fabric section and lane split (11 R349, R364; 19 R636). -/
def State.loadConfig (s : State) : State :=
  let s1 := s.loadType 3
  if (s1.copies 3).running.isNone then s1.failBits (2 ^ 9)
  else
    let f := Config.fabricSection (objBody (s1.copies 3).runs)
    let ext := fun (n : Nat) => min 32 (max 1 n)
    { s1 with
      fab := { s1.fab with dims := some (ext f.xdim, ext f.ydim, ext f.zdim), slotMap := (f.slots ++ List.replicate 64 (0, 0, 0)).take 64,
                           fabDigest := shake256 f.bytes 16 }
      boot := { s1.boot with split := f.split % 3, clocking := f.clocking % 2 } }

/-- Steps 4 to 6 up to the powering of the domains. No stage 1: recovery; no stage 2: stage 1 stays (R621)
(DEDUCED, log entry 31). -/
def State.bootStages (s : State) : State :=
  let s1 := s.loadType 1
  if (s1.copies 1).running.isNone then s1.atStage 3
  else
    let s2 := (s1.atStage 1).loadType 2
    if (s2.copies 2).running.isNone then s2 else (s2.atStage 2).loadConfig

/-- Step 2: the protected counters are read; a write count lower than the last one seen fails (R625). A tag that does not
verify is a finding of SELFTEST_COMPLETE (DESIGN CHOICE, log entry 98). -/
def State.readCounters (s : State) : State :=
  if s.boot.counterWrites < s.boot.writesSeen then s.failBits (2 ^ 8)
  else { s with boot := { s.boot with writesSeen := s.boot.counterWrites } }

/-- Steps 1 to 3, then the stages: the seed, the counters and BOOT_COUNT, the key manifest under its own keys (DEDUCED, log
entry 31) (DEDUCED, log entry 92). -/
def State.bootChain (s : State) : State :=
  let n := s.boot.counters.getD 4 0
  let s0 : State := { s with
    pow := { s.pow with selftest := 0, stage := 0 }
    boot := { s.boot with seedOk := true, manifestOk := false } }
  let s1 := (s0.readCounters.raiseCounter 4 (min (n + 1) 0xFFFFFFFF)).resWrote Config.recordBytes
  let m := s1.boot.manifest
  if m = [] then s1.bootStages
  else if objReason (some (objBody m)) (s1.counter 4) 4 m = 0 then
    State.bootStages { s1 with boot := { s1.boot with manifestOk := true } }
  else (s1.failBits (2 ^ 6)).bootStages

/-- R622: a copy that ran as TRY becomes PREFERRED (DESIGN CHOICE, log entry 98). -/
def Copies.keepTry (c : Copies) : Copies :=
  if c.ranTry then { c with preferred := c.running.getD c.preferred, ranTry := false } else c
/-- R622 for a type, whose selection the reservoir takes. -/
def State.keepTry (s : State) (type : Nat) : State :=
  if (s.copies type).ranTry then (s.onCopies type Copies.keepTry).resWrote Config.recordBytes else s

end Sys2Proof.Machine
end

