-- ==== Sys2Proof/Machine/Flt.lean ====
section
/-! DEFINITION. Number formats, rounding and conversion (04 R120 to R138, R148, R149), and exact arithmetic on their
values. -/

namespace Sys2Proof.Machine

/-- The six formats (04 R120). -/
inductive Fmt where
  | s4 | s8x | s8r | s16 | h32 | x64
  deriving DecidableEq, Repr

/-- Rounding modes (04 R128). -/
inductive RMode where
  | rne | sr | rto
  deriving DecidableEq, Repr

/-- A value: NaN, an infinity, or `(-1)^neg * m * 2^e`. -/
inductive Val where
  | nan
  | inf (neg : Bool)
  | fin (neg : Bool) (m : Nat) (e : Int)
  deriving DecidableEq, Repr

/-- A converted code with what its rounding did (04 R135; 06 R216). -/
structure Rnd where
  code : Nat
  invalid : Bool
  overflow : Bool
  underflow : Bool
  inexact : Bool
  deriving DecidableEq, Repr

/-- Format of a 3-bit code (04 R120). -/
def fmtOf (c : Nat) : Option Fmt :=
  match c with
  | 0 => some .s4 | 1 => some .s8x | 2 => some .s8r | 3 => some .s16 | 4 => some .h32 | 5 => some .x64
  | _ => none

/-- Rounding mode of a 2-bit code (04 R128). -/
def rmodeOf (c : Nat) : Option RMode :=
  match c with
  | 0 => some .rne | 1 => some .sr | 2 => some .rto | _ => none

/-- Width in bits (04 R120). -/
def Fmt.width : Fmt → Nat
  | .s4 => 4 | .s8x => 8 | .s8r => 8 | .s16 => 16 | .h32 => 32 | .x64 => 64
/-- Mantissa bits p (04 R121). -/
def Fmt.p : Fmt → Nat
  | .s4 => 1 | .s8x => 3 | .s8r => 2 | .s16 => 7 | .h32 => 23 | .x64 => 52
/-- Bias b (04 R121). -/
def Fmt.bias : Fmt → Nat
  | .s4 => 1 | .s8x => 7 | .s8r => 15 | .s16 => 127 | .h32 => 127 | .x64 => 1023
/-- Code of the largest finite magnitude (04 format parameters). -/
def Fmt.maxCode : Fmt → Nat
  | .s4 => 7 | .s8x => 0x7E | .s8r => 0x7B | .s16 => 0x7F7F | .h32 => 0x7F7FFFFF | .x64 => 0x7FEFFFFFFFFFFFFF
/-- Canonical NaN (04 R123); S4 has none. -/
def Fmt.nanCode : Fmt → Nat
  | .s4 => 0 | .s8x => 0x7F | .s8r => 0x7E | .s16 => 0x7FC0 | .h32 => 0x7FC00000 | .x64 => 0x7FF8000000000000
/-- Whether a format has infinities (04 format parameters). -/
def Fmt.hasInf : Fmt → Bool
  | .s4 => false | .s8x => false | _ => true
/-- Whether a format is a block format (04 R120). -/
def Fmt.isBlock : Fmt → Bool
  | .s4 => true | .s8x => true | .s8r => true | _ => false
/-- Sign bit of a code. -/
def signCode (f : Fmt) (neg : Bool) : Nat := if neg then 2 ^ (f.width - 1) else 0

/-- Value of an encoding (04 R121, R122). -/
def decodeF (f : Fmt) (code : Nat) : Val :=
  let neg := bitOf code (f.width - 1)
  let mag := code % 2 ^ (f.width - 1)
  if f.maxCode < mag then
    (if f.hasInf && mag == f.maxCode + 1 then .inf neg else .nan)
  else
    let e := mag / 2 ^ f.p
    let m := mag % 2 ^ f.p
    if e = 0 then .fin neg m (1 - (f.bias : Int) - f.p) else .fin neg (2 ^ f.p + m) ((e : Int) - f.bias - f.p)

/-- `m / 2^sh` rounded to an integer under a mode, and whether it was inexact (04 R129 to R131); `r` is R132's number. -/
def roundShift (mode : RMode) (r : Nat) (m sh : Nat) : Nat × Bool :=
  let t := m / 2 ^ sh
  let rem := m % 2 ^ sh
  let up := match mode with
    | .rne => decide (2 ^ sh < 2 * rem) || (decide (2 * rem = 2 ^ sh) && t % 2 == 1)
    | .rto => decide (rem ≠ 0) && t % 2 == 0
    | .sr => decide (2 ^ 16 ≤ rem * 2 ^ 16 / 2 ^ sh + r)
  (if up then t + 1 else t, decide (rem ≠ 0))

/-- `m * 2^e` as an integer multiple of `2^u`, rounded (04 R128). -/
def roundTo (mode : RMode) (r : Nat) (m : Nat) (e u : Int) : Nat × Bool :=
  if u ≤ e then (m * 2 ^ (e - u).toNat, false) else roundShift mode r m (u - e).toNat

/-- Magnitude code of `m * 2^e`, `m ≠ 0`, with the exponent unbounded above, and whether it is inexact (04 R128, R133). -/
def roundMag (f : Fmt) (mode : RMode) (r : Nat) (m : Nat) (e : Int) : Nat × Bool :=
  let q := max ((Nat.log2 m : Int) + e) (1 - f.bias)
  let t := roundTo mode r m e (q - f.p)
  ((q + f.bias - 1).toNat * 2 ^ f.p + t.1, t.2)

/-- Conversion of a value to a format (04 R133 to R135). An overflow to NaN is INVALID too (06 R216). An S4 NaN or infinity gives 0; R136 acts on its block
(DEDUCED, log entry 52). -/
def conv (f : Fmt) (mode : RMode) (r : Nat) (sat : Bool) (v : Val) : Rnd :=
  match v with
  | .nan => { code := f.nanCode, invalid := false, overflow := false, underflow := false, inexact := false }
  | .inf neg =>
    if f.hasInf then
      { code := signCode f neg + f.maxCode + 1, invalid := false, overflow := false, underflow := false, inexact := false }
    else if f = .s8x && sat then
      { code := signCode f neg + f.maxCode, invalid := false, overflow := true, underflow := false, inexact := true }
    else { code := f.nanCode, invalid := true, overflow := false, underflow := false, inexact := false }
  | .fin neg m e =>
    if m = 0 then
      { code := signCode f neg, invalid := false, overflow := false, underflow := false, inexact := false }
    else
      let t := roundMag f mode r m e
      if f.maxCode < t.1 then
        let code :=
          if f = .s4 || mode = .rto || sat then signCode f neg + f.maxCode
          else if f.hasInf then signCode f neg + f.maxCode + 1
          else f.nanCode
        { code := code, invalid := !(f = .s4 || mode = .rto || sat || f.hasInf), overflow := true, underflow := false,
          inexact := true }
      else
        { code := signCode f neg + t.1, invalid := false, overflow := false,
          underflow := t.2 && decide (t.1 < 2 ^ f.p), inexact := t.2 }

/-- Conversion under RNE without saturation. -/
def convRne (f : Fmt) (v : Val) : Rnd := conv f .rne 0 false v

/-- Whether a value is NaN. -/
def Val.isNan : Val → Bool
  | .nan => true
  | _ => false
/-- Whether a value is finite. -/
def Val.isFin : Val → Bool
  | .fin _ _ _ => true
  | _ => false
/-- Whether a value is a zero. -/
def Val.isZero : Val → Bool
  | .fin _ 0 _ => true
  | _ => false
/-- Sign of a value; NaN has none. -/
def Val.neg : Val → Bool
  | .nan => false
  | .inf n => n
  | .fin n _ _ => n
/-- The value with its sign set. -/
def Val.withSign (n : Bool) : Val → Val
  | .nan => .nan
  | .inf _ => .inf n
  | .fin _ m e => .fin n m e
/-- The value with its sign changed. -/
def Val.flip (v : Val) : Val := v.withSign (!v.neg)
/-- Times `2^k`, exactly (04 R124). -/
def Val.scale (k : Int) : Val → Val
  | .fin n m e => .fin n m (e + k)
  | v => v

/-- `(-1)^neg m` as an integer. -/
def signed (neg : Bool) (m : Nat) : Int := if neg then -(m : Int) else m

/-- Exact product, with the sign of a zero as IEEE 754 has it. -/
def Val.mul (a b : Val) : Val :=
  match a, b with
  | .nan, _ => .nan
  | _, .nan => .nan
  | .inf n, .inf k => .inf (n != k)
  | .inf n, .fin k m _ => if m = 0 then .nan else .inf (n != k)
  | .fin n m _, .inf k => if m = 0 then .nan else .inf (n != k)
  | .fin n m e, .fin k l f => .fin (n != k) (m * l) (e + f)

/-- Exact sum, with the sign of a zero sum as IEEE 754 has it under round-to-nearest (04 R160). -/
def Val.add (a b : Val) : Val :=
  match a, b with
  | .nan, _ => .nan
  | _, .nan => .nan
  | .inf n, .inf k => if n = k then .inf n else .nan
  | .inf n, _ => .inf n
  | _, .inf k => .inf k
  | .fin n m e, .fin k l f =>
    let u := min e f
    let x := signed n (m * 2 ^ (e - u).toNat) + signed k (l * 2 ^ (f - u).toNat)
    if x = 0 then .fin (n && k) 0 0 else .fin (decide (x < 0)) x.natAbs u

/-- Order of two values that are no NaN; zeros are equal. -/
def Val.lt (a b : Val) : Bool :=
  match a, b with
  | .inf n, .inf k => n && !k
  | .inf n, .fin _ _ _ => n
  | .fin _ _ _, .inf k => !k
  | .fin n m e, .fin k l f =>
    let u := min e f
    decide (signed n (m * 2 ^ (e - u).toNat) < signed k (l * 2 ^ (f - u).toNat))
  | _, _ => false
/-- Equality of two values that are no NaN; zeros are equal. -/
def Val.eqv (a b : Val) : Bool := !a.isNan && !b.isNan && !a.lt b && !b.lt a

/-- Value of an H32 word. -/
def hval (w : BitVec 32) : Val := decodeF .h32 w.toNat
/-- Value of an S16 word. -/
def sval (w : BitVec 16) : Val := decodeF .s16 w.toNat

/-- H32 word of a value under RNE. -/
def toH (v : Val) : BitVec 32 := BitVec.ofNat 32 (convRne .h32 v).code

/-- H32 addition under RNE with subnormals kept (04 R160). -/
def hAdd (a b : BitVec 32) : BitVec 32 := toH ((hval a).add (hval b))
/-- H32 subtraction. -/
def hSub (a b : BitVec 32) : BitVec 32 := toH ((hval a).add (hval b).flip)
/-- H32 multiplication. -/
def hMul (a b : BitVec 32) : BitVec 32 := toH ((hval a).mul (hval b))
/-- H32 fused multiply-add. -/
def hFma (a b c : BitVec 32) : BitVec 32 := toH (((hval a).mul (hval b)).add (hval c))

/-- Whether an H32 word is finite. -/
def hFin (w : BitVec 32) : Bool := (hval w).isFin

/-- A subnormal H32 word becomes a zero of its sign (04 R149). -/
def hFlush (w : BitVec 32) : BitVec 32 :=
  if w.toNat % 2 ^ 31 < 2 ^ 23 then BitVec.ofNat 32 (w.toNat / 2 ^ 31 * 2 ^ 31) else w

/-- Rounding of a nonzero exact value to 24 significant bits, exponent unbounded below, then R149 (04 R148, R149). -/
def round24 (mode : RMode) (r : Nat) (neg : Bool) (m : Nat) (e : Int) : BitVec 32 :=
  let q := (Nat.log2 m : Int) + e
  let t := roundTo mode r m e (q - 23)
  let s := if neg then 2 ^ 31 else 0
  let mag : Int := (q + 126) * 2 ^ 23 + t.1
  if mag < 2 ^ 23 then BitVec.ofNat 32 s
  else if 0x7F800000 ≤ mag then BitVec.ofNat 32 (s + 0x7F800000)
  else BitVec.ofNat 32 (s + mag.toNat)

/-- H32 addition under RNE with the flush of R149 (04 R155). -/
def hAddFlush (a b : BitVec 32) : BitVec 32 :=
  match (hval a).add (hval b) with
  | .fin n m e => if m = 0 then (if n then 0x80000000 else 0) else round24 .rne 0 n m e
  | v => toH v

/-- Binary64 word of a value under RNE. -/
def toX (v : Val) : BitVec 64 := BitVec.ofNat 64 (convRne .x64 v).code
/-- Value of an X64 word. -/
def xval (w : BitVec 64) : Val := decodeF .x64 w.toNat
/-- Binary64 addition under RNE with subnormals kept (04 R154). -/
def xAdd (a b : BitVec 64) : BitVec 64 := toX ((xval a).add (xval b))

/-- Sum over a fixed binary tree: adjacent pairs, level by level, the last one carried when the count is odd
(05 R183, R186). -/
def treeStep {α : Type} (f : α → α → α) : List α → List α
  | a :: b :: r => f a b :: treeStep f r
  | r => r

/-- Reduction of a list by the tree, at most `2^20` entries. -/
def treeFold {α : Type} (f : α → α → α) (z : α) (l : List α) : α :=
  ((List.range 20).foldl (fun acc _ => treeStep f acc) l).headD z

end Sys2Proof.Machine
end

