-- ==== Sys2Proof/Machine/Dot.lean ====
section
/-! DEFINITION. The defined dot product (04 R144 to R155), conversion to the block formats (04 R136, R142, R143, R654)
and the scale record (04 R139, R140). -/

namespace Sys2Proof.Machine

/-- Group size (04 R144). -/
def groupSize (f : Fmt) : Nat := if f = .s16 then 16 else 32

/-- R152: what a K-group with a non-finite product makes of the running sum. -/
def specialSum (acc : BitVec 32) (nan pinf ninf : Bool) : BitVec 32 :=
  let v := hval acc
  if nan || (pinf && ninf) || v.isNan then 0x7FC00000
  else if pinf then (if v = .inf true then 0x7FC00000 else 0x7F800000)
  else (if v = .inf false then 0x7FC00000 else 0xFF800000)

/-- R148, R149: the running sum with `w * 2^l` added and rounded. -/
def roundIntoH32 (acc : BitVec 32) (w : Int) (l : Int) (sticky : Bool) (mode : RMode) (r : Nat) : BitVec 32 :=
  match hval acc with
  | .nan => 0x7FC00000
  | .inf _ => acc
  | .fin n m e =>
    match (Val.fin n m e).add (.fin (decide (w < 0)) w.natAbs l) with
    | .fin k q u =>
      if q = 0 then 0
      else if mode = .sr then round24 .sr r k q u
      else round24 .rne 0 k (2 * q + if sticky then 1 else 0) (u - 1)
    | _ => acc

/-- Leading bit position of a finite nonzero value. -/
def leadPos : Val → Int
  | .fin _ m e => (Nat.log2 m : Int) + e
  | _ => 0

/-- A product in the window with lowest bit `2^l`: its truncated integer and whether a bit was dropped (04 R146). -/
def windowed (l : Int) : Val → Int × Bool
  | .fin n m e =>
    if l ≤ e then (signed n (m * 2 ^ (e - l).toNat), false)
    else (signed n (m / 2 ^ (l - e).toNat), decide (m % 2 ^ (l - e).toNat ≠ 0))
  | _ => (0, false)

/-- The finite products of a K-group that are not zero (04 R146, R147). -/
def finiteProds (prods : List Val) : List Val := prods.filter fun v => v.isFin && !v.isZero

/-- Position of the window's lowest bit over the finite nonzero products: 64 below the highest leading bit (04 R146),
and 0 over none (DESIGN CHOICE, log entry 124). -/
def windowPos (prods : List Val) : Int :=
  match finiteProds prods with
  | [] => 0
  | x :: rest => rest.foldl (fun a v => max a (leadPos v)) (leadPos x) - 64

/-- The window sum of a K-group's finite products, and whether a bit was dropped (04 R146; 05 R190). -/
def windowSum (prods : List Val) : Int × Bool :=
  (finiteProds prods).foldl
    (fun (a : Int × Bool) v => let h := windowed (windowPos prods) v; (a.1 + h.1, a.2 || h.2)) ((0 : Int), false)

/-- One K-group's products added into a running sum (04 R146 to R152); `err` is what a fault of the array has added to the
window sum, 0 without one. -/
def dotGroup (prods : List Val) (err : Int) (acc : BitVec 32) (mode : RMode) (r : Nat) : BitVec 32 :=
  let nan := prods.any Val.isNan
  let pinf := prods.any (· == .inf false)
  let ninf := prods.any (· == .inf true)
  if nan || pinf || ninf then specialSum acc nan pinf ninf
  else if finiteProds prods = [] && err = 0 then acc
  else
    let t := windowSum prods
    roundIntoH32 acc (t.1 + err) (windowPos prods) t.2 mode r

/-! ### Residues of the checksum row and column (05 R190) -/

/-- The prime `2^61 - 1`. -/
abbrev checkPrime : Int := 2305843009213693951
/-- Residue of `2^e`: `2^61` is 1. -/
def twoRes (e : Int) : Int := 2 ^ (e % 61).toNat
/-- Residue of a value; a value that is not finite has residue 0. -/
def Val.res : Val → Int
  | .fin n m e => signed n m * twoRes e % checkPrime
  | _ => 0
/-- Residue of the bits of a product that the window with lowest bit `2^l` truncates. -/
def droppedRes (l : Int) : Val → Int
  | .fin n m e => if l ≤ e then 0 else signed n (m % 2 ^ (l - e).toNat) * twoRes e
  | _ => 0
/-- Residue of what the array forms for one element: its window sum, with what a fault has added, and the dropped part. -/
def arrayRes (prods : List Val) (err : Int) : Int :=
  (((windowSum prods).1 + err) * twoRes (windowPos prods) +
    ((finiteProds prods).map (droppedRes (windowPos prods))).sum) % checkPrime
/-- Whether a row or column sum differs from its prediction: `prods i j` are the products of element (i, j), `err i j` what
a fault of the array has added to it, `a i k` and `b j k` the operands. -/
def checksumDiffers (rows cols ks : Nat) (a b : Nat → Nat → Val) (prods : Nat → Nat → List Val) (err : Nat → Nat → Int) :
    Bool :=
  (List.range rows).any (fun i =>
    ((List.range cols).map fun j => arrayRes (prods i j) (err i j)).sum % checkPrime !=
      ((List.range ks).map fun k => (a i k).res * ((List.range cols).map fun j => (b j k).res).sum).sum % checkPrime) ||
  (List.range cols).any (fun j =>
    ((List.range rows).map fun i => arrayRes (prods i j) (err i j)).sum % checkPrime !=
      ((List.range ks).map fun k => ((List.range rows).map fun i => (a i k).res).sum * (b j k).res).sum % checkPrime)

/-- An element of a block-format or S16 operand with its block scale (04 R124). S16 carries none (DEDUCED, log entry 58). -/
def scaled (f : Fmt) (code e8 : Nat) : Val :=
  if f.isBlock then (if e8 = 0xFF then .nan else (decodeF f code).scale ((e8 : Int) - 127)) else decodeF f code

/-- What one input adds to a scale record (04 R139). -/
structure RecAdd where
  amax : Nat
  nonfinite : Nat
  overflows : Nat
  underflows : Nat
  deriving DecidableEq, Repr

/-- Nothing added. -/
def RecAdd.zero : RecAdd := { amax := 0, nonfinite := 0, overflows := 0, underflows := 0 }

/-- Two contributions joined (04 R140). -/
def RecAdd.join (a b : RecAdd) : RecAdd :=
  { amax := max a.amax b.amax, nonfinite := a.nonfinite + b.nonfinite, overflows := a.overflows + b.overflows,
    underflows := a.underflows + b.underflows }

/-- A 16-byte scale record with a contribution applied (04 R140). -/
def RecAdd.apply (a : RecAdd) (bs : Bytes) : Bytes :=
  toLE 4 (max (fld bs 0 4) a.amax) ++ toLE 4 (sat32 (fld bs 4 4 + a.nonfinite)) ++
    toLE 4 (sat32 (fld bs 8 4 + a.overflows)) ++ toLE 4 (sat32 (fld bs 12 4 + a.underflows))

/-- H32 code of a finite magnitude under RTO (04 R139). -/
def amaxOf (v : Val) : Nat := if v.isFin then (conv .h32 .rto 0 false (v.withSign false)).code else 0

/-- Exponent of a format's largest value (04 R142). -/
def emaxOf (f : Fmt) : Int := match f with | .s4 => 2 | .s8x => 8 | _ => 15

/-- Block scale of current scaling (04 R142). -/
def currentE8 (f : Fmt) (xs : List Val) : Nat :=
  match xs.filter (fun v => v.isFin && !v.isZero) with
  | [] => 0
  | x :: rest => (max 0 (min 254 (rest.foldl (fun a v => max a (leadPos v)) (leadPos x) - emaxOf f + 127))).toNat

/-- R654, steps 1 to 3, of one value: the final rounding judged against the exact scaled value (06 R222). `wide` says
that the value is an X64 sum (DEDUCED, log entry 58). -/
def narrow (f : Fmt) (mode : RMode) (r : Nat) (sat wide : Bool) (e8 : Nat) (v : Val) : Rnd :=
  let x := v.scale (127 - (e8 : Int))
  let h := if wide then decodeF .h32 (conv .h32 .rto 0 false x).code else x
  let ih := wide && (conv .h32 .rto 0 false x).inexact
  let s := conv .s16 .rto 0 false h
  let t := conv f mode r sat (decodeF .s16 s.code)
  let ix := t.inexact || s.inexact || ih
  { t with inexact := ix, underflow := t.underflow || (ix && !v.isZero && v.isFin && decide (t.code % 2 ^ (f.width - 1) < 2 ^ f.p)) }

/-- A converted block: its scale, the elements, and what it adds to the scale record. -/
structure BlockOut where
  e8 : Nat
  elems : List Rnd
  record : RecAdd
  deriving DecidableEq, Repr

/-- A zero element with no flag. -/
def Rnd.zero : Rnd := { code := 0, invalid := false, overflow := false, underflow := false, inexact := false }

/-- Converts one block of 32 (04 R136, R139, R142, R143, R654). A masked-off element is `none`: it is stored as +0 and
adds nothing (06 R221). `rs` are the random bits of each element (DEDUCED, log entry 58). -/
def blockConv (f : Fmt) (mode : RMode) (sat current wide : Bool) (e8 : Nat) (xs : List (Option Val)) (rs : List Nat) :
    BlockOut :=
  let live := xs.filterMap id
  let e := if current then currentE8 f live else e8
  let nf := (live.filter fun v => !v.isFin).length
  let amax := live.foldl (fun a v => max a (amaxOf v)) 0
  if f = .s4 && nf ≠ 0 then
    { e8 := 0xFF
      elems := xs.map fun x => match x with
        | some (.inf _) => { Rnd.zero with invalid := true }
        | _ => Rnd.zero
      record := { amax := amax, nonfinite := nf, overflows := 0, underflows := 0 } }
  else
    let out := (xs.zip rs).map fun x => match x.1 with
      | none => (Rnd.zero, RecAdd.zero)
      | some v =>
        let t := narrow f mode x.2 (sat || current) wide e v
        (t, { amax := 0, nonfinite := 0, overflows := if v.isFin && t.overflow then 1 else 0,
              underflows := if v.isFin && !v.isZero && t.code % 2 ^ (f.width - 1) = 0 then 1 else 0 })
    { e8 := e, elems := out.map (·.1),
      record := (out.map (·.2)).foldl RecAdd.join { amax := amax, nonfinite := nf, overflows := 0, underflows := 0 } }

/-- Codes of elements packed into bytes (04 R126). -/
def packCodes (f : Fmt) : List Nat → Bytes
  | [] => []
  | [a] => if f = .s4 then [BitVec.ofNat 8 a] else toLE (f.width / 8) a
  | a :: b :: r =>
    if f = .s4 then BitVec.ofNat 8 (a + 16 * b) :: packCodes f r
    else toLE (f.width / 8) a ++ packCodes f (b :: r)
termination_by structural l => l

/-- Code of element `i` of packed bytes. -/
def codeAt (f : Fmt) (bs : Bytes) (i : Nat) : Nat :=
  if f = .s4 then fld bs (i / 2) 1 / 16 ^ (i % 2) % 16 else fld bs (i * (f.width / 8)) (f.width / 8)

end Sys2Proof.Machine
end

