-- ==== Sys2Proof/Machine/FabOps.lean ====
section
/-! DEFINITION. What every user of the fabric shares (11): module IDs and rings, the map, routes (R369 to R371), packets
as bytes (R378), injection with its sequence numbers, job windows (R385 to R388), remote requests and the remote read
buffer. -/

namespace Sys2Proof.Machine

/-! ### Module IDs (11 R351, R352) -/

/-- Coordinate of a module ID on axis 0 X, 1 Y, 2 Z. -/
def coord (id ax : Nat) : Nat := if ax = 0 then id / 1024 % 32 else if ax = 1 then id / 32 % 32 else id % 32
/-- Module ID of coordinates. -/
def mkId (x y z : Nat) : Nat := x * 1024 + y * 32 + z
/-- A module ID with one coordinate replaced. -/
def withCoord (id ax v : Nat) : Nat :=
  mkId (if ax = 0 then v else coord id 0) (if ax = 1 then v else coord id 1) (if ax = 2 then v else coord id 2)
/-- Extent of an axis. -/
def extent (d : Nat × Nat × Nat) (ax : Nat) : Nat := if ax = 0 then d.1 else if ax = 1 then d.2.1 else d.2.2
/-- Whether every coordinate of an ID lies below its extent. -/
def inTorus (d : Nat × Nat × Nat) (id : Nat) : Bool :=
  decide (coord id 0 < d.1) && decide (coord id 1 < d.2.1) && decide (coord id 2 < d.2.2)
/-- Port of an axis and direction: `2 ax` for +, `2 ax + 1` for - (11 R352). -/
def portOf (ax : Nat) (minus : Bool) : Nat := 2 * ax + if minus then 1 else 0

/-! ### The map (11 R415) -/

/-- LIVE and generation of a module; every module not listed is live at generation 0. -/
def mapEntry (m : List (Nat × Bool × Nat)) (id : Nat) : Bool × Nat :=
  ((m.find? fun e => e.1 == id).map (·.2)).getD (true, 0)
/-- R415: the entry that wins when two meet. -/
def mergeEntry (a b : Bool × Nat) : Bool × Nat :=
  if a.2 < b.2 then b else if b.2 < a.2 then a else (a.1 && b.1, a.2)
/-- A map with an entry merged in, ascending IDs. -/
def mergeMap (m : List (Nat × Bool × Nat)) (id : Nat) (e : Bool × Nat) : List (Nat × Bool × Nat) :=
  tset m id (some (mergeEntry (mapEntry m id) e))

/-! ### Routes (11 R369 to R371) -/

/-- What a route is computed from: extents, map, own ID, and which own ports cannot be used. -/
structure Net where
  dims : Nat × Nat × Nat
  map : List (Nat × Bool × Nat)
  self : Nat
  bad : List Nat
  deriving DecidableEq, Repr

/-- Positions passed from coordinate `a` to `b` in a direction, `b` last. -/
def ringPath (n a b : Nat) (minus : Bool) : List Nat :=
  let len := if minus then (a + n - b) % n else (b + n - a) % n
  (List.range len).map fun i => if minus then (a + n - 1 - i) % n else (a + 1 + i) % n

/-- Whether three bypassed positions follow each other (11 R413). -/
def threeDead : List Bool → Bool
  | a :: b :: c :: r => (!a && !b && !c) || threeDead (b :: c :: r)
  | _ => false

/-- Whether the way from module `s` along an axis to coordinate `b` passes an own port that cannot be used: the one it
leaves this module by, or the one it comes in by (R369). On an axis of extent 2 only + ports carry packets (R353). -/
def Net.broken (n : Net) (s ax b : Nat) (minus : Bool) : Bool :=
  let c := coord n.self ax
  let path := ringPath (extent n.dims ax) (coord s ax) b minus
  withCoord s ax c == n.self &&
    (((coord s ax == c || path.dropLast.contains c) && n.bad.contains (portOf ax minus)) ||
      (path.contains c && n.bad.contains (portOf ax (extent n.dims ax != 2 && !minus))))

/-- Links from module `s` along an axis to coordinate `b` in a direction, or none when it cannot be used: an own port
that is DOWN, in FAULT or without packets, three bypassed positions, the - direction of an axis of extent 2 (R353, R369). -/
def Net.links (n : Net) (s ax b : Nat) (minus : Bool) : Option Nat :=
  let ext := extent n.dims ax
  let live := (ringPath ext (coord s ax) b minus).map fun v => (mapEntry n.map (withCoord s ax v)).1
  if coord s ax = b then some 0
  else if (ext = 2 && minus) || threeDead live || n.broken s ax b minus then none
  else some (live.filter id).length

/-- Direction of travel within a ring and its links (R369). -/
def Net.dir (n : Net) (s ax b : Nat) : Option (Bool × Nat) :=
  match n.links s ax b false, n.links s ax b true with
  | some p, some m => if m < p then some (true, m) else some (false, p)
  | some p, none => some (false, p)
  | none, some m => some (true, m)
  | none, none => none

/-- A direct route from `s` to `t`: its direction bits and links (R370). -/
def Net.direct (n : Net) (s t : Nat) : Option (Nat × Nat) :=
  let c1 := withCoord s 0 (coord t 0)
  let c2 := withCoord c1 1 (coord t 1)
  let live := fun i => i == s || (mapEntry n.map i).1
  if !(live c1 && live c2 && live t) then none
  else
    match n.dir s 0 (coord t 0), n.dir c1 1 (coord t 1), n.dir c2 2 (coord t 2) with
    | some a, some b, some c =>
      some ((if a.1 then 1 else 0) + (if b.1 then 2 else 0) + (if c.1 then 4 else 0), a.2 + b.2 + c.2)
    | _, _, _ => none

/-- All module IDs of the torus, ascending. -/
def Net.ids (n : Net) : List Nat :=
  (List.range n.dims.1).flatMap fun x => (List.range n.dims.2.1).flatMap fun y =>
    (List.range n.dims.2.2).map fun z => mkId x y z

/-- A route: intermediate, phase at injection, ROUTE byte (R370, R371). None: unreachable. -/
def Net.route (n : Net) (d : Nat) : Option (Nat × Bool × Nat) :=
  match n.direct n.self d with
  | some r => some (d, true, r.1 * 8)
  | none =>
    let best := n.ids.foldl (fun (acc : Option (Nat × Nat × Nat)) i =>
      if !(mapEntry n.map i).1 then acc
      else match n.direct n.self i, n.direct i d with
        | some a, some b =>
          match acc with
          | some (_, l, _) => if a.2 + b.2 < l then some (i, a.2 + b.2, a.1 + b.1 * 8) else acc
          | none => some (i, a.2 + b.2, a.1 + b.1 * 8)
        | _, _ => acc) none
    best.map fun b => (b.1, false, b.2.2)

/-- Whether a port carries no packets: DOWN, FAULT, or its partner is the module itself (R365, R369). -/
def portUnusable (p : Port) : Bool := p.st == .down || p.st == .fault || p.mute

/-- What this module computes routes from, once its ID is fixed. -/
def State.net (s : State) : Option Net :=
  match s.fab.modId, s.fab.dims with
  | some i, some d =>
    some { dims := d, map := s.fab.routeMap, self := i,
           bad := (s.fab.ports.zipIdx.filter fun x => portUnusable x.1).map (·.2) }
  | _, _ => none

/-! ### Packets (11 R378) -/

/-- A packet with every header field zero. -/
def pktBlank : Pkt :=
  { ty := 0, vc := 0, dclass := false, phase := false, resync := false, flagRsv := 0, len := 0, dest := 0, src := 0,
    inter := 0, eseq := 0, tag := 0, code := 0, ttl := 0, a := 0, route := 0, b23 := 0, j := 0, payload := [], held := none }

/-- FLAGS byte. -/
def pktFlags (p : Pkt) : Nat :=
  p.vc % 8 + (if p.dclass then 8 else 0) + (if p.phase then 16 else 0) + (if p.resync then 32 else 0) + p.flagRsv % 4 * 64

/-- Bytes of a packet: the 32-byte header, then the payload. -/
def pktBytes (p : Pkt) : Bytes :=
  toLE 1 p.ty ++ toLE 1 (pktFlags p) ++ toLE 2 p.len ++ toLE 2 p.dest ++ toLE 2 p.src ++ toLE 2 p.inter ++
    toLE 2 p.eseq.toNat ++ toLE 2 p.tag ++ toLE 1 p.code ++ toLE 1 p.ttl ++ toLE 6 p.a.toNat ++ toLE 1 p.route.toNat ++
    toLE 1 p.b23.toNat ++ toLE 8 p.j.toNat ++ p.payload

/-- Bytes of payload a type carries: none for READ_REQ, whose LEN is what it asks for. -/
def payLen (ty len : Nat) : Nat := if ty = 1 then 0 else len

/-- A packet read from bytes. -/
def parsePkt (b : Bytes) : Pkt :=
  let f := fld b 1 1
  { ty := fld b 0 1, vc := f % 8, dclass := bitOf f 3, phase := bitOf f 4, resync := bitOf f 5, flagRsv := f / 64,
    len := fld b 2 2, dest := fld b 4 2, src := fld b 6 2, inter := fld b 8 2, eseq := BitVec.ofNat 16 (fld b 10 2),
    tag := fld b 12 2, code := fld b 14 1, ttl := fld b 15 1, a := BitVec.ofNat 48 (fld b 16 6),
    route := BitVec.ofNat 8 (fld b 22 1), b23 := BitVec.ofNat 8 (fld b 23 1), j := BitVec.ofNat 64 (fld b 24 8),
    payload := (b.drop 32).take (payLen (fld b 0 1) (fld b 2 2)), held := none }

/-- Slots of 32 bytes a packet occupies (R356). -/
def pktSlots (p : Pkt) : Nat := ceilDiv (32 + p.payload.length) 32
/-- Receive class (R360). -/
def pktCls (p : Pkt) : Nat := 4 * p.vc + 2 * (if p.phase then 1 else 0) + if p.dclass then 1 else 0

/-! ### Receive buffers (R360) -/

/-- Frees slots of a class in a port's receive buffer, to be returned as credits. -/
def Port.free (q : Port) (c n : Nat) : Port := { q with freed := modAt q.freed c (· + n), used := modAt q.used c (· - n) }
/-- The slots that a packet at the endpoint still occupies are freed (R360; 12 R462). -/
def State.freeHeld (s : State) (p : Pkt) : State :=
  match p.held with
  | some (k, c) => s.onPort k fun q => q.free c (pktSlots p)
  | none => s

/-! ### Injection (R371, R403, R405, R419) -/

/-- Next ESEQ of a triple to `dest` on channel `vc`. -/
def State.eseqOf (s : State) (dest vc : Nat) : Nat :=
  ((s.fab.txEseq.find? fun e => e.1 == (dest, vc)).map (·.2)).getD 0

/-- The first port of a packet from this module (R372). -/
def firstPort (self : Nat) (p : Pkt) : Option Nat :=
  let t := if p.phase then p.dest else p.inter
  let r := if p.phase then p.route.toNat / 8 else p.route.toNat
  ((List.range 3).find? fun ax => coord self ax != coord t ax).map fun ax => portOf ax (bitOf r ax)

/-- Whether the link from `self` on a port to a partner wraps its ring (R374). -/
def linkWraps (self port partner : Nat) : Bool :=
  if port % 2 = 0 then decide (coord partner (port / 2) < coord self (port / 2))
  else decide (coord self (port / 2) < coord partner (port / 2))
/-- Whether a packet that leaves `self` on a port takes a wrapping link (R374). -/
def wraps (s : State) (self port : Nat) : Bool := ((s.fab.ports[port]?).bind (·.partner)).any (linkWraps self port)

/-- Whether a port trains. -/
def portTrains (p : Port) : Bool := p.st == .training || p.st == .retrain

/-- What a router does with a packet (R372, R373). -/
inductive Hop where
  | deliver
  | drop
  | down (port : Nat)
  | wait
  | out (port : Nat) (p : Pkt)
  deriving DecidableEq, Repr

/-- Whether a port's partner lies beyond a target in the direction of travel (R373). -/
def beyond (d : Nat × Nat × Nat) (self partner target port : Nat) : Bool :=
  let ax := port / 2
  let dist := fun v => if port % 2 = 0 then (v + extent d ax - coord self ax) % extent d ax
                       else (coord self ax + extent d ax - v) % extent d ax
  decide (dist (coord target ax) < dist (coord partner ax))

/-- What becomes of a packet whose port is `k`: discarded where the port is DOWN or in FAULT, carries no packets, or leads
beyond its target; it waits while the port trains (R365, R373). -/
def State.toPort (s : State) (self k : Nat) (p : Pkt) : Hop :=
  match s.fab.ports[k]?, s.fab.dims with
  | some q, some d =>
    if q.st == .down then .down k
    else if q.st == .fault || q.mute then .drop
    else if portTrains q then .wait
    else if (q.partner.map fun m => beyond d self m (if p.phase then p.dest else p.inter) k).getD true then .drop
    else .out k p
  | _, _ => .drop

/-- Records a fabric event (R420). -/
def State.fabEvent (s : State) (code port id : Nat) : State := s.event code 0xFF 0 port id 0

/-- Puts a packet behind the others that wait for a port. -/
def State.enqueue (s : State) (port : Nat) (p : Pkt) : State := s.onPort port fun q => { q with outq := q.outq ++ [p] }

/-- The packets that wait for a port, after its state or its partner has changed: those that it can no longer carry are
discarded (R373) (DEDUCED, log entry 71). -/
def State.purge (s : State) (self k : Nat) : State :=
  match s.fab.ports[k]? with
  | none => s
  | some q =>
    let stays := fun p => match s.toPort self k p with
      | .out _ _ => true
      | .wait => true
      | _ => false
    let lost := if q.st == .down then q.outq else []
    lost.foldl (fun st p => st.fabEvent 0x0020 k p.dest) (s.onPort k fun y => { y with outq := y.outq.filter stays })

/-- A packet of this module goes to its first port (R372, R373), which is not DOWN: its route avoids such a port (R369). -/
def State.inject (s : State) (self : Nat) (p : Pkt) : State :=
  match firstPort self p with
  | none => s
  | some k => match s.toPort self k p with
    | .out _ _ => s.enqueue k p
    | .wait => s.enqueue k p
    | _ => s

/-- Sends a packet the module has made: route, ESEQ and RESYNC written as it is injected (R371); until the whole map has
come it is kept as it is (R419). A packet to the module itself is delivered at once. False: the destination is unreachable
(R408). -/
def State.send (s : State) (p : Pkt) : State × Bool :=
  match s.net with
  | none => (s, false)
  | some n =>
    if p.dest = n.self then
      ({ s with fab := { s.fab with rx := s.fab.rx ++ [{ p with src := n.self }] } }, true)
    else
      match (if (mapEntry n.map p.dest).1 then n.route p.dest else none) with
      | none => (s, false)
      | some (i, ph, r) =>
        if !s.fab.mapWhole then ({ s with fab := { s.fab with tx := s.fab.tx ++ [p] } }, true)
        else
          let q := s.eseqOf p.dest p.vc
          let p1 := { p with src := n.self, inter := i, phase := ph, dclass := false, ttl := 128, route := BitVec.ofNat 8 r,
                             eseq := BitVec.ofNat 16 q, resync := s.fab.resync.contains (p.dest, p.vc) }
          let s1 : State := { s with fab := { s.fab with
              txEseq := (s.fab.txEseq.filter fun e => e.1 != (p.dest, p.vc)) ++ [((p.dest, p.vc), (q + 1) % 65536)]
              resync := s.fab.resync.filter fun e => e != (p.dest, p.vc) } }
          (s1.inject n.self p1, true)

/-- A control packet (R379). -/
def ctlPkt (ty dest : Nat) (job : BitVec 64) (a : Nat) (payload : Bytes) : Pkt :=
  { pktBlank with ty := ty, vc := 0, dest := dest, j := job, a := BitVec.ofNat 48 a, len := payload.length, payload := payload }

/-- Sends one packet to each of a list of modules but this one. -/
def State.sendOthers (s : State) (ids : List Nat) (p : Nat → Pkt) : State :=
  (ids.filter fun i => s.fab.modId != some i).foldl (fun st i => (st.send (p i)).1) s

/-! ### Job windows (R385 to R389) -/

/-- Rights of a request type: R 1, W 2, A 4. -/
def covers (ws : List (Nat × Nat × Nat)) (right a n : Nat) : Bool :=
  ws.any fun w => inside a n w.1 w.2.1 && (w.2.2 / right % 2 == 1)
/-- Whether every address of a range lies in one of some ranges: from `a` on to the end of a range that holds it, `k` times. -/
def joined (l : List (Nat × Nat)) (stop : Nat) : Nat → Nat → Bool
  | 0, a => decide (stop ≤ a)
  | k + 1, a => decide (stop ≤ a) || match l.find? fun w => decide (w.1 ≤ a) && decide (a < w.1 + w.2) with
    | some w => joined l stop k (w.1 + w.2)
    | none => false
/-- Whether windows with a right cover a range together (R387). -/
def coversAll (ws : List (Nat × Nat × Nat)) (right a n : Nat) : Bool :=
  joined ((ws.filter fun w => w.2.2 / right % 2 == 1).map fun w => (w.1, w.2.1)) (a + n) ws.length a
/-- Whether every address of a range on module `m` lies in a window that a tenant owns (02 R76; R387). -/
def State.ownsRange (s : State) (tenant m right a n : Nat) : Bool :=
  coversAll ((s.work.jobs.filter fun j => j.tenant == tenant && j.st == .running && j.members.contains m).flatMap (·.windows)) right a n

/-- R387, R388: job id of the running job of a tenant, lowest handle first, that owns a window on module `m`. -/
def State.windowJob (s : State) (tenant m right a n : Nat) : Option (BitVec 64) :=
  let l := s.work.jobs.filter fun j => j.tenant == tenant && j.st == .running && j.members.contains m && coversAll j.windows right a n
  (l.foldl (fun (acc : Option Job) j => match acc with
    | some b => if j.handle < b.handle then some j else some b
    | none => some j) none).map (·.jobId)

/-- Whether a job has ended and its windows only wait for requests in progress against them (R386). -/
def State.winding (s : State) (j : Job) : Bool :=
  (j.st == .stopped || j.st == .failed) && s.fab.granted.any fun p => p.j == j.jobId
/-- Whether a job's window with a right covers a range of a request from `src` (R389). -/
def State.admits (s : State) (job : BitVec 64) (src right a n : Nat) : Bool :=
  s.work.jobs.any fun j => j.jobId == job && !s.winding j && j.members.contains src && covers j.windows right a n

/-- Status of a request before it is carried out: R384, R389, and a memory group that is off, which comes first while the
module sleeps (R367). A request in progress when its job ended stays admitted (R386) (DEDUCED, log entry 23). -/
def State.requestStatus (s : State) (p : Pkt) (right n : Nat) : Nat :=
  let a := p.a.toNat
  let off := hbmAny s.groupOff a n
  if hbmEnd < a + n then stDenied
  else if s.pow.asleep && off then stNoResource
  else if !(s.admits p.j p.src right a n || s.fab.granted.contains p) then stDenied
  else if off then stNoResource
  else stOK
/-- Whether a request must wait for its memory group (10 R338). -/
def State.requestWaits (s : State) (p : Pkt) (right n : Nat) : Bool :=
  s.requestStatus p right n == stOK && hbmAny (fun g => !s.groupReady g) p.a.toNat n
/-- Right and length of a request at its destination (R389). -/
def reqNeeds (p : Pkt) : Nat × Nat :=
  if p.ty = 1 then (1, p.len) else if p.ty = 2 then (2, p.payload.length) else (4, if p.code / 16 % 2 = 0 then 4 else 8)
/-- Removes a job's windows; requests in progress against them, which wait for their memory group, complete first (R386)
(DEDUCED, log entry 23). -/
def State.dropWindows (s : State) (j : Job) : State :=
  let l := s.fab.rx.filter fun p => decide (1 ≤ p.ty ∧ p.ty ≤ 3) && p.j == j.jobId && s.requestWaits p (reqNeeds p).1 (reqNeeds p).2
  if l.isEmpty then s.onJob j.handle fun x => { x with windows := [] } else { s with fab := { s.fab with granted := s.fab.granted ++ l } }
/-- A request in progress has completed: with the last one its job's windows go (R386). -/
def State.requestDone (s : State) (p : Pkt) : State :=
  if !s.fab.granted.contains p then s
  else
    let s1 : State := { s with fab := { s.fab with granted := dropFirst (fun q => q == p) s.fab.granted } }
    ((s.work.jobs.filter fun j => j.jobId == p.j && s.winding j && !s1.winding j).foldl
      (fun st j => st.onJob j.handle fun x => { x with windows := [] }) s1)

/-! ### Global addresses (R381 to R384) -/

/-- What an address of a mover names. -/
inductive Place where
  | loc (a : Nat)
  | remote (m a : Nat)
  | atomicPort (m off : Nat)
  | fenceReg (m : Nat)
  | bad (status : Nat)
  deriving DecidableEq, Repr

/-- Place of `n` bytes at a 64-bit address. -/
def State.placeOf (s : State) (addr n : Nat) : Place :=
  if addr < 2 ^ 63 then .loc addr
  else
    let m := bits addr 62 48
    let a := addr % 2 ^ 48
    match s.fab.modId, s.fab.dims with
    | some self, some d =>
      if !inTorus d m then .bad stBadParam
      else if 0xFFFFFFFFFF00 ≤ a && a + n ≤ 0xFFFFFFFFFF40 then .atomicPort m (a - 0xFFFFFFFFFF00)
      else if 0xFFFFFFFFFFF8 ≤ a && a + n ≤ 0x1000000000000 then .fenceReg m
      else if hbmEnd < a + n then .bad stDenied
      else if m = self then .loc a
      else .remote m a
    | _, _ => .bad stBadParam

/-! ### Remote requests (R376, R398 to R402) -/

/-- A tag no outstanding request carries, from `t` on. -/
def freeTag (rs : List Remote) : Nat → Nat → Nat
  | 0, t => t
  | k + 1, t => if rs.any fun r => r.tag == t then freeTag rs k ((t + 1) % 65536) else t

/-- Issues a remote request with its outcome recorded, unless 16,384 are outstanding (R402): none. An unreachable
destination gives false (R408). -/
def State.request (s : State) (p : Pkt) (what : RemoteFor) : Option (State × Bool) :=
  if 16384 ≤ s.fab.remotes.length then none
  else
    let t := freeTag s.fab.remotes 16385 s.fab.nextTag
    let r := s.send { p with tag := t }
    if r.2 then
      some ({ r.1 with fab := { r.1.fab with
        nextTag := (t + 1) % 65536
        remotes := r.1.fab.remotes ++ [{ tag := t, dest := p.dest, vc := p.vc, addr := p.a.toNat, len := p.len, what := what }] } }, true)
    else some (s, false)

/-- Newest WGEN received from a peer (R399). -/
def State.peerWgen (s : State) (m : Nat) : Option (BitVec 32) := (s.fab.peerGen.find? fun e => e.1 == m).map (·.2)

/-- Data of a remote range when every line of it is buffered and current (R399). -/
def State.buffered (s : State) (m a n : Nat) : Option Bytes :=
  let l0 := a / 64
  let k := (a + n - 1) / 64 + 1 - l0
  let lines := (List.range k).map fun i =>
    s.fab.readBuf.find? fun b => b.peer == m && b.line == l0 + i && s.peerWgen m == some b.wgen
  if lines.all Option.isSome then
    some (((lines.flatMap fun b => (b.map (·.data)).getD []).drop (a - l0 * 64)).take n)
  else none

/-- Buffered lines of a peer's range made not valid (R400). -/
def State.dropLines (s : State) (m a n : Nat) : State :=
  { s with fab := { s.fab with readBuf := s.fab.readBuf.filter fun b => !(b.peer == m && overlaps (b.line * 64) 64 a n) } }
/-- Every buffered line of a peer made not valid (R400). -/
def State.dropPeer (s : State) (m : Nat) : State :=
  { s with fab := { s.fab with readBuf := s.fab.readBuf.filter fun b => b.peer != m } }

end Sys2Proof.Machine
end

