-- ==== Sys2Proof/Machine/CollOps.lean ====
section
/-! DEFINITION. What the collectives share (12): shards and the cascade tree, wire packets and their residues, the adder's
arithmetic, sending with the retain buffer, deliveries, and the end of one outstanding collective. -/

namespace Sys2Proof.Machine

/-! ### Shards and the tree (12 R429 to R435) -/

/-- Group by id. -/
def State.group? (s : State) (g : Nat) : Option Group := s.cas.groups.find? fun x => x.gid == g
/-- Changes a group. -/
def State.onGroup (s : State) (g : Nat) (f : Group → Group) : State :=
  { s with cas := { s.cas with groups := modFirst (fun x => x.gid == g) f s.cas.groups } }
/-- Changes an outstanding collective. -/
def State.onColl (s : State) (rid : Nat) (f : CollRun → CollRun) : State :=
  { s with cas := { s.cas with colls := modFirst (fun x => x.rid == rid) f s.cas.colls } }
/-- Outstanding collective by number. -/
def State.coll? (s : State) (rid : Nat) : Option CollRun := s.cas.colls.find? fun x => x.rid == rid

/-- Wire formats: a format code of R120, 6 for u64, 7 for ledger entries. -/
abbrev wireU64 : Nat := 6
abbrev wireLedger : Nat := 7
/-- Wire format of an operation. -/
def CollRun.kind (r : CollRun) : Nat := if r.op = 8 then wireLedger else if r.op = 9 then wireU64 else r.wire
/-- Bytes of a wire element. -/
def wireBytes (k : Nat) : Nat :=
  if k = wireLedger then 64 else if k = wireU64 then 8 else match fmtOf k with
    | some f => max 1 (f.width / 8)
    | none => 1
/-- Bytes of `n` elements of a format code. -/
def fmtBytes (code n : Nat) : Nat := match fmtOf code with
  | some f => ceilDiv (n * f.width) 8
  | none => n

/-- First unit boundary of shard `s` of `n`, in elements, padded (R429, R430). -/
def shardLo (count unit n s : Nat) : Nat := s * ceilDiv count unit / n * unit
/-- Unit of a shard in elements. -/
def CollRun.unit (r : CollRun) : Nat := if r.op = 2 && r.wire = 1 then 32 else 16
/-- First element, elements that count, and padded elements of a shard. LEDGER and COUNT_SUM have one shard. -/
def CollRun.shard (r : CollRun) (n s : Nat) : Nat × Nat × Nat :=
  if r.op = 8 || r.op = 9 then (if s = 0 then (0, r.count, r.count) else (0, 0, 0))
  else
    let a := shardLo r.count r.unit n s
    let b := shardLo r.count r.unit n (s + 1)
    (a, min b r.count - a, b - a)

/-- Rank that computes the adder over ranks `lo` to `hi - 1` for a shard (R434). -/
def placeRank (low : Bool) (s lo hi : Nat) : Nat := if low then lo else lo + s % (hi - lo)
/-- Rank that gives the value of a range: a leaf, or the adder over it (R432, R435). -/
def producer (low : Bool) (s lo hi : Nat) : Nat := if hi = lo + 1 then lo else placeRank low s lo hi
/-- Node `(L, j)` of `n` ranks: first rank, first of the upper half, end (R431). -/
def node (n L j : Nat) : Nat × Nat × Nat := (j * 2 ^ (L + 1), j * 2 ^ (L + 1) + 2 ^ L, min ((j + 1) * 2 ^ (L + 1)) n)
/-- The next adder above a range: its level, first rank and end; none at the root. -/
def above (n lo hi : Nat) : Option (Nat × Nat × Nat) :=
  (List.range 15).findSome? fun L =>
    let x := node n L (lo / 2 ^ (L + 1))
    if x.1 < lo || hi < x.2.2 then some (L, x.1, x.2.2) else none
/-- An input stream that has had nothing. -/
def newIn (src ty shard level : Nat) : StreamIn :=
  { src := src, ty := ty, shard := shard, level := level, q := [], resend := false, last := false, pos := 0, ended := false,
    acked := false, full := 0 }
/-- The adders of a shard that rank `r` computes (R431 to R434). -/
def addersOf (g : Group) (s : Nat) : List Adder :=
  let n := g.members.length
  (List.range 15).filterMap fun L =>
    let x := node n L (g.rank / 2 ^ (L + 1))
    if x.2.1 < x.2.2 && placeRank g.low s x.1 x.2.2 = g.rank then
      some { shard := s, level := L, lo := x.1, hi := x.2.2
             lower := newIn (g.members.getD (producer g.low s x.1 x.2.1) 0) 0x10 s L
             upper := newIn (g.members.getD (producer g.low s x.2.1 x.2.2) 0) 0x10 s L, ended := false }
    else none

/-! ### Residues (12 R441 to R443) -/

/-- Residue modulo 7 of a value; none of a non-finite one. -/
def residue : Val → Nat
  | .fin neg m e => ((signed neg (m % 7) * 2 ^ (e % 3).toNat) % 7).toNat
  | _ => 0
/-- Residue of the unit of ledger data: three sums, ELEMENTS, NF_GRAD, NF_STATE and FLAGS (DEDUCED, log entry 81). -/
def ledgerRes (b : Bytes) : Nat :=
  (([16, 24, 32].map fun o => residue (decodeF .x64 (fld b o 8))).sum + fld b 40 8 + fld b 48 4 + fld b 52 4 + fld b 56 1) % 7
/-- Residue of the elements `from_` to `from_ + n - 1` of a payload. -/
def unitRes (k : Nat) (b : Bytes) (from_ n : Nat) : Nat :=
  ((List.range n).map fun i =>
    if k = wireU64 then fld b (8 * (from_ + i)) 8 % 7
    else match fmtOf k with
      | some f => residue (decodeF f (codeAt f b (from_ + i)))
      | none => 0).sum % 7
/-- RES of a payload: residue of unit i in bits [3i+2:3i]; zero where none applies (DEDUCED, log entry 77). -/
def resOf (k : Nat) (b : Bytes) : Nat :=
  let units :=
    if k = wireLedger then (List.range (b.length / 64)).map fun i => ledgerRes (fldBytes b (64 * i) 64)
    else if k = 3 || k = 4 || k = wireU64 then
      let n := b.length / wireBytes k
      (List.range (ceilDiv n 16)).map fun i => unitRes k b (16 * i) (min 16 (n - 16 * i))
    else []
  (units.zipIdx.map fun x => x.1 * 8 ^ x.2).sum

/-! ### Wire packets -/

/-- Fields of bytes 16 to 21 of a collective packet. -/
def pkGid (p : Pkt) : Nat := p.a.toNat % 4096
def pkCop (p : Pkt) : Nat := bits p.a.toNat 15 12
def pkLevel (p : Pkt) : Nat := bits p.a.toNat 19 16
def pkResent (p : Pkt) : Bool := bitOf p.a.toNat 20
def pkLastp (p : Pkt) : Bool := bitOf p.a.toNat 21
def pkShard (p : Pkt) : Nat := bits p.a.toNat 46 32
/-- Bytes 16 to 21 of a collective packet. -/
def collA (gid op level : Nat) (resent last : Bool) (shard : Nat) : BitVec 48 :=
  BitVec.ofNat 48 (gid + op * 2 ^ 12 + level * 2 ^ 16 + (if resent then 2 ^ 20 else 0) + (if last then 2 ^ 21 else 0) + shard * 2 ^ 32)
/-- A data packet of an outstanding collective. -/
def CollRun.pkt (r : CollRun) (ty dest level shard : Nat) (last : Bool) (payload : Bytes) : Pkt :=
  let k := if ty = 0x11 && !(r.op == 2 || r.op == 3) then r.sfmt else r.kind
  { pktBlank with ty := ty, vc := r.vc, dest := dest, len := payload.length, payload := payload
                  a := collA r.gid r.op level false last shard, j := BitVec.ofNat 64 (resOf k payload) }
/-- A byte string in pieces of up to `k` bytes. -/
def chunks (k : Nat) : Nat → Bytes → List Bytes
  | 0, _ => []
  | _, [] => []
  | n + 1, b => b.take k :: chunks k n (b.drop k)
/-- The packets of a stream: pieces, the last marked LAST (R436). -/
def CollRun.stream (r : CollRun) (ty dest level shard : Nat) (pieces : List Bytes) : List Pkt :=
  pieces.zipIdx.map fun x => r.pkt ty dest level shard (x.2 + 1 == pieces.length) x.1
/-- Pieces of up to 512 bytes. -/
def wirePieces (b : Bytes) : List Bytes := chunks 512 (b.length + 1) b
/-- An answer to a data packet: CHECK_ACK, RESEND_REQ or LANDED for its stream. -/
def answer (ty code : Nat) (p : Pkt) : Pkt :=
  { pktBlank with ty := ty, vc := 6, dest := p.src, code := code, a := collA (pkGid p) (pkCop p) (pkLevel p) false false (pkShard p) }
/-- Whether a retained packet belongs to the stream an answer names. -/
def sameStream (k p : Pkt) : Bool := k.dest == p.src && (pkGid k) == (pkGid p) && (pkCop k) == (pkCop p) && (pkLevel k) == (pkLevel p) && (pkShard k) == (pkShard p)

/-! ### Formats -/

/-- Codes of `n` elements. -/
def codesOf (f : Fmt) (b : Bytes) (n : Nat) : List Nat := (List.range n).map (codeAt f b)
/-- A wire value in a destination format: exact to a wider one, RNE otherwise (R438). -/
def recode (from_ dst : Nat) (code : Nat) : Nat :=
  match fmtOf from_, fmtOf dst with
  | some f, some t => if f = t then code else (conv t .rne 0 false (decodeF f code)).code
  | _, _ => code
/-- Elements recoded. -/
def recodeAll (from_ dst : Nat) (b : Bytes) (n : Nat) : Bytes :=
  match fmtOf from_, fmtOf dst with
  | some f, some t => packCodes t ((codesOf f b n).map (recode from_ dst))
  | _, _ => b
/-- Blocks of 32 for the S8x wire: elements, then the scales (R436, R452). -/
def blockPieces : Nat → List (Bytes × Nat) → List Bytes
  | 0, _ => []
  | _, [] => []
  | n + 1, l => ((l.take 15).flatMap (·.1) ++ (l.take 15).map (fun x => BitVec.ofNat 8 x.2)) :: blockPieces n (l.drop 15)

/-! ### The adder (12 R437, R451) -/

/-- One element of an adder's output from the two inputs at byte `o`. -/
def addElem (k : Nat) (rto : Bool) (n : Nat) (a b : Bytes) : Bytes :=
  if k = wireU64 then toLE 8 (sat64 (leNat a + leNat b))
  else if k = wireLedger then
    let x := fun o => toLE 8 (xAdd (BitVec.ofNat 64 (fld a o 8)) (BitVec.ofNat 64 (fld b o 8))).toNat
    fldBytes a 0 4 ++ toLE 2 0xFFFE ++ toLE 2 n ++ fldBytes a 8 8 ++ x 16 ++ x 24 ++ x 32 ++
      toLE 8 (sat64 (fld a 40 8 + fld b 40 8)) ++ toLE 4 (sat32 (fld a 48 4 + fld b 48 4)) ++
      toLE 4 (sat32 (fld a 52 4 + fld b 52 4)) ++ toLE 1 (fld a 56 1 ||| fld b 56 1) ++ zeros 7
  else
    let w := fun (y : Bytes) => recode k 4 (leNat y)
    let h := hAdd (BitVec.ofNat 32 (w a)) (BitVec.ofNat 32 (w b))
    if k = 3 then toLE 2 (conv .s16 (if rto then .rto else .rne) 0 false (hval h)).code else toLE 4 h.toNat
/-- An adder's output payload. -/
def addPayload (k : Nat) (rto : Bool) (n : Nat) (a b : Bytes) : Bytes :=
  let e := wireBytes k
  (List.range (a.length / e)).flatMap fun i => addElem k rto n (fldBytes a (e * i) e) (fldBytes b (e * i) e)

/-! ### The end of a collective (12 R424, R427, R428, R467) -/

/-- Removes a group that is being destroyed once nothing of it is outstanding, and replies (R424). -/
def State.groupGone (s : State) (gid : Nat) : State :=
  match s.group? gid with
  | some g =>
    if g.st == .destroying && s.cas.colls.all (fun r => r.gid != gid) then
      State.finishWait { s with cas := { s.cas with groups := s.cas.groups.filter fun x => x.gid != gid } }
        (.groupDestroy gid) stOK 0 0 0
    else s
  | none => s

/-- Status a collective ends with (R428, R467) (DEDUCED, log entries 79, 82). -/
def CollRun.status (r : CollRun) (cause : Nat) : Nat :=
  if cause = stMemberLost || cause = stResidue then cause
  else if r.dropped ≠ 0 then stLimit
  else if cause ≠ stOK then cause
  else if (r.op == 1 || r.op == 3) && r.nonfinite ≠ 0 then stNonFinite
  else stOK

/-- Ends an outstanding collective with a cause (OK: it has completed). -/
def State.endColl (s : State) (r : CollRun) (cause : Nat) : State :=
  let g := s.group? r.gid
  let n := (g.map (·.members.length)).getD 1
  let sh := r.shard n ((g.map (·.rank)).getD 0)
  let st := r.status cause
  let r0 := sat32 r.nonfinite + sat32 r.faults * 2 ^ 32
  let r1 := if r.op = 1 then sh.1 else if r.op = 7 then r.dropped else 0
  let r2 := if r.op = 1 then sh.2.1 else 0
  let s1 : State := { s with cas := { s.cas with
      colls := s.cas.colls.filter fun x => x.rid != r.rid
      retain := s.cas.retain.filter fun x => x.rid != r.rid } }
  let s2 := match r.who with
    | .command uid => s1.finishUid uid st r0 r1 r2
    | .entry h i => s1.onJob h fun j => { j with entries := modAt j.entries i fun _ => .done st }
    | .sum h => s1.onJob h fun j => { j with summed := true, failWith := if st = stOK then j.failWith else some st }
  s2.groupGone r.gid

/-- Ends every outstanding collective that a test names. -/
def State.endColls (s : State) (q : CollRun → Bool) (cause : Nat) : State :=
  (s.cas.colls.filter q).foldl (fun st r => st.endColl r cause) s

/-! ### Sending (12 R444, R460) -/

/-- Bytes in the retain buffer. -/
def State.retained (s : State) : Nat :=
  ((s.cas.retain.filter fun x => x.pkt.ty == 0x10).map fun x => 32 + x.pkt.payload.length).sum
/-- Whether a collective has sent every packet it will send. -/
def CollRun.sentAll (r : CollRun) : Bool :=
  r.out.isEmpty && (r.halted || (r.adders.all (·.ended) && (r.op != 3 || r.recv.all fun i => i.ty != 0x10 || i.ended)))
/-- Whether it has completed (R453, R458); one that was stopped, whether all it sent is acknowledged (R466; 02 R71). -/
def State.collDone (s : State) (r : CollRun) : Bool :=
  r.started && r.sentAll && (r.halted || (r.recv.all (·.ended) && r.toLand.isEmpty)) && r.landing.isEmpty &&
    s.cas.retain.all fun x => x.rid != r.rid

/-- Sends the waiting packets of one channel while the retain buffer has room; at most `n` of them. -/
def State.pumpVc (s : State) (vc : Nat) : Nat → State
  | 0 => s
  | n + 1 =>
    match s.cas.colls.find? fun r => r.vc == vc && r.started && !r.sentAll with
    | none => s
    | some r =>
      match r.out with
      | [] => s
      | p :: rest =>
        if p.ty == 0x10 && decide (2 ^ 24 < s.retained + 32 + p.payload.length) then s
        else
          let x := s.send p
          if x.2 then
            let s1 := x.1.onColl r.rid fun y => { y with out := rest, progressUs := s.clk.nowUs }
            State.pumpVc { s1 with cas := { s1.cas with retain := s1.cas.retain ++ [{ rid := r.rid, pkt := p }] } } vc n
          else (s.endColl r stMemberLost).pumpVc vc n
/-- Sends what can be sent on every collective channel, then ends what has completed. -/
def State.pump (s : State) : State :=
  let n := (s.cas.colls.map fun r => r.out.length + 1).sum
  let s1 := [1, 2, 3, 4].foldl (fun st vc => st.pumpVc vc n) s
  s1.cas.colls.foldl (fun st r => match st.coll? r.rid with
    | some y => if st.collDone y then st.endColl y (if y.halted then stAborted else stOK) else st
    | none => st) s1
/-- Packets behind those a collective has to send; none of one that was stopped (R466). -/
def CollRun.queue (r : CollRun) (l : List Pkt) : List Pkt := if r.halted then r.out else r.out ++ l
/-- Puts packets behind those a collective has to send. -/
def State.collOut (s : State) (rid : Nat) (l : List Pkt) : State := s.onColl rid fun r => { r with out := r.queue l }

/-! ### Deliveries (12 R438, R449, R452 to R458) -/

/-- Non-finite elements among the first `n` of a payload. -/
def nonFinite (k : Nat) (b : Bytes) (n : Nat) : Nat :=
  match fmtOf k with
  | some f => ((codesOf f b n).filter fun c => !(decodeF f c).isFin).length
  | none => 0
/-- Non-finite elements among the first `n` of S8x blocks (R449). -/
def blockNonFinite (b : Bytes) (n : Nat) : Nat :=
  let k := b.length / 33
  ((List.range n).filter fun i => !(scaled .s8x (fld b i 1) (fld b (32 * k + i / 32) 1)).isFin).length
/-- Adds to a job's step count (R449). -/
def State.addStepCount (s : State) (job n : Nat) : State := s.onJob job fun j => { j with stepCount := sat64 (j.stepCount + n) }
/-- Writes delivered bytes; false when a line refused them. -/
def State.land (s : State) (a : Nat) (b : Bytes) : State × Bool := s.store 6 a b
/-- Byte in which element `i` of a format begins, and the elements of the array in front of that byte (04 R126). -/
def elemByte (f : Fmt) (i : Nat) : Nat × Nat := let o := i * f.width / 8; (o, o * 8 / f.width)
/-- Elements `from_` to `from_ + n - 1` of the array of a format at `a`, packed from the first byte on (R454). -/
def State.elemsAt (s : State) (code a from_ n : Nat) : Bytes :=
  match fmtOf code with
  | none => []
  | some f =>
    let o := elemByte f from_
    let b := s.bytesAt (a + o.1) (ceilDiv ((from_ + n) * f.width) 8 - o.1)
    if f.width % 8 = 0 then b else packCodes f ((List.range n).map fun i => codeAt f b (from_ - o.2 + i))
/-- Writes `n` elements of a format as elements `from_` on of the array at `a`; a byte that they fill in part keeps its
other half (R454). -/
def State.landElems (s : State) (code a from_ n : Nat) (b : Bytes) : State × Bool :=
  match fmtOf code with
  | none => (s, true)
  | some f =>
    let o := elemByte f from_
    if f.width % 8 = 0 then s.land (a + o.1) (b.take (n * f.width / 8))
    else
      let old := s.bytesAt (a + o.1) (ceilDiv ((from_ + n) * f.width) 8 - o.1)
      let k := from_ - o.2
      s.land (a + o.1) (packCodes f ((List.range (old.length * 8 / f.width)).map fun i =>
        if k ≤ i ∧ i < k + n then codeAt f b (i - k) else codeAt f old i))
/-- Elements of a format that `n` bytes hold. -/
def elemsIn (code n : Nat) : Nat := match fmtOf code with
  | some f => n * 8 / f.width
  | none => 0
/-- Elements of S8x blocks widened to a format (R137, R452). -/
def widenBlocks (dfmt : Nat) (b : Bytes) : Bytes :=
  let n := b.length / 33
  match fmtOf dfmt with
  | some t => packCodes t ((List.range (32 * n)).map fun i => (conv t .rne 0 false (scaled .s8x (fld b i 1) (fld b (32 * n + i / 32) 1))).code)
  | none => []
/-- Where the bytes of a PERMUTE stream go: entries of offset and length, a position, the bytes. -/
def scatter : List (Nat × Nat) → Nat → Bytes → List (Nat × Bytes)
  | [], _, _ => []
  | (o, n) :: r, pos, b =>
    if n ≤ pos then scatter r (pos - n) b
    else (o + pos, b.take (n - pos)) :: (if b.length ≤ n - pos then [] else scatter r 0 (b.drop (n - pos)))
/-- Writes pieces; false when one was refused. -/
def State.landAll (s : State) (l : List (Nat × Bytes)) : State × Bool :=
  l.foldl (fun x e => let y := x.1.land e.1 e.2; (y.1, x.2 && y.2)) (s, true)
/-- Entries of a move table from rank `a` to rank `b`, with their index. -/
def CollRun.moves (r : CollRun) (a b : Nat) : List ((Nat × Nat × Nat × Nat × Nat) × Nat) :=
  r.table.zipIdx.filter fun e => e.1.1 == a && e.1.2.1 == b

/-- Uses one delivered packet of stream `x` of a collective: the state, the stream's new position, and a cause to end
(DEDUCED, log entries 77, 79). -/
def State.useDelivery (s : State) (r : CollRun) (g : Group) (x : StreamIn) (p : Pkt) : State × Nat × Nat :=
  let n := g.members.length
  let b := p.payload
  let putTo := fun (st : State) (a : Nat) (bs : Bytes) (pos : Nat) =>
    let y := st.land a bs
    (y.1, pos, if y.2 then stOK else stUncorrectable)
  if r.op = 1 || (r.op = 3 && x.ty = 0x10) then
    let k := b.length / wireBytes r.wire
    let sh := r.shard n g.rank
    let live := min k (sh.2.1 - x.pos)
    let nf := nonFinite r.wire b live
    let s1 := s.addStepCount g.job nf
    if r.op = 3 then
      (s1.collOut r.rid (g.members.map fun m => r.pkt 0x11 m 0xF g.rank (pkLastp p) b), x.pos + k, stOK)
    else putTo (s1.onColl r.rid fun y => { y with nonfinite := y.nonfinite + nf }) (r.dst + fmtBytes r.dfmt x.pos) (recodeAll r.wire r.dfmt b live) (x.pos + k)
  else if r.op = 2 || r.op = 3 then
    let sh := r.shard n x.shard
    if r.wire = 1 then
      let k := b.length / 33 * 32
      let w := widenBlocks r.dfmt b
      let nf := blockNonFinite b (min k (sh.2.1 - x.pos))
      putTo (s.onColl r.rid fun y => { y with nonfinite := y.nonfinite + nf }) (r.dst + fmtBytes r.dfmt (sh.1 + x.pos)) (w.take (fmtBytes r.dfmt (min k (sh.2.1 - x.pos)))) (x.pos + k)
    else
      let k := b.length / wireBytes r.wire
      let nf := nonFinite r.wire b (min k (sh.2.1 - x.pos))
      putTo (s.onColl r.rid fun y => { y with nonfinite := y.nonfinite + nf })
        (r.dst + fmtBytes r.dfmt (sh.1 + x.pos)) (recodeAll r.wire r.dfmt b (min k (sh.2.1 - x.pos))) (x.pos + k)
  else if r.op = 5 then
    let l := r.moves x.shard g.rank
    let total := (l.map fun e => e.1.2.2.2.2).sum
    if total < x.pos + b.length then (s, x.pos, stBadParam)
    else
      let y := s.landAll ((scatter (l.map fun e => (e.1.2.2.2.1, e.1.2.2.2.2)) x.pos b).map fun e => (r.dst + e.1, e.2))
      let ends := l.zipIdx.map fun e => (e.1.2, ((l.take (e.2 + 1)).map fun z => z.1.2.2.2.2).sum)
      let now := (ends.filter fun e => r.toLand.contains e.1 && decide (x.pos < e.2) && decide (e.2 ≤ x.pos + b.length)).map (·.1)
      let s1 := if !y.2 then y.1 else now.foldl (fun st _ => (st.send { (answer 0x14 0 p) with a := collA r.gid r.op 0xF false false g.rank }).1) y.1
      (s1.onColl r.rid fun z => { z with toLand := z.toLand.filter fun i => !now.contains i }, x.pos + b.length,
        if y.2 then stOK else stUncorrectable)
  else if r.op = 7 then
    let c := if x.pos = 0 then fld b 0 4 else x.full
    let s1 := if x.pos = 0 then
        s.onColl r.rid fun z => { z with dropped := z.dropped + (c - r.arg), recv := modFirst (fun y => y.src == x.src) (fun y => { y with full := c }) z.recv }
      else s
    let y := if x.pos = 0 then s1.land (r.aux + 4 * n + 4 * x.shard) (toLE 4 c) else (s1, true)
    let at_ := elemsIn r.sfmt (x.pos - 4)
    let data := if x.pos = 0 then b.drop 4 else b
    let z := y.1.landElems r.sfmt r.dst (x.shard * r.arg + at_) (min (elemsIn r.sfmt data.length) (min c r.arg - at_)) data
    (z.1, x.pos + b.length, if y.2 && z.2 then stOK else stUncorrectable)
  else match r.who with
    | .sum h =>
      let v := leNat b
      let s1 := s.onJob h fun j => { j with skip := v != 0, summed := true }
      (if v = 0 then s1 else s1.event 0x0032 0xFF 0 g.gid (s.fab.modId.getD 0) 0, x.pos + b.length, stOK)
    | _ => putTo s (r.dst + x.pos) b (x.pos + b.length)

/-! ### Checks and consumption (12 R443 to R446) -/

/-- An instance's number in `k` RES units of 0 to 6 each, so that 0b111 never appears (R442) (DESIGN CHOICE, log entry 19). -/
def resNum : Nat → Nat → Nat
  | 0, _ => 0
  | k + 1, n => n % 7 + 8 * resNum k (n / 7)
/-- The number that `k` RES units hold. -/
def resVal : Nat → Nat → Nat
  | 0, _ => 0
  | k + 1, n => n % 8 + 7 * resVal k (n / 8)
/-- Notices to every other member of a group that an instance has ended with RESIDUE_FAULT: a RESEND_REQ marked LAST
(R446) (DESIGN CHOICE, log entry 19). -/
def State.residueNotice (s : State) (g : Group) (r : CollRun) : State :=
  s.sendOthers g.members fun m =>
    { pktBlank with ty := 0x13, vc := 6, dest := m, a := collA g.gid r.op 0xF false true 0, j := BitVec.ofNat 64 (resNum 16 r.ord) }

/-- A failed check: the count of the module and of the collective, and the event (R445). -/
def State.residueFault (s : State) (rid gid sender : Nat) : State :=
  let s1 := (s.onColl rid fun r => { r with faults := r.faults + 1 }).event 0x0030 0xFF 0 gid sender 0
  let l := s.clk.nowUs :: s1.cas.residueTimes.filter fun x => decide (s.clk.nowUs ≤ x + 3600000000)
  { s1 with cas := { s1.cas with residueFaults := s1.cas.residueFaults + 1, residueTimes := l } }
/-- Failed checks in a row on an adder path set to `k`. -/
def State.setFails (s : State) (m k : Nat) : State :=
  { s with cas := { s.cas with pathFails := tset s.cas.pathFails m (if k = 0 then none else some k) } }
/-- Failed checks in a row on an adder path. -/
def State.failsOf (s : State) (m : Nat) : Nat := ((s.cas.pathFails.find? fun e => e.1 == m).map (·.2)).getD 0
/-- One more failed check on a path; the third in a row fences it (R446, R447). -/
def State.pathFail (s : State) (m gid : Nat) : State :=
  let k := s.failsOf m + 1
  let s1 := s.setFails m k
  if k < 3 || s1.cas.pathFenced.contains m then s1
  else ({ s1 with cas := { s1.cas with pathFenced := s1.cas.pathFenced ++ [m] } }).event 0x0031 0xFF 0 gid m 0
/-- Asks for the oldest packet of a stream again. -/
def State.askResend (s : State) (p : Pkt) : State := (s.send (answer 0x13 0 p)).1
/-- Acknowledges a packet (DEDUCED, log entry 81). -/
def State.ackPkt (s : State) (p : Pkt) : State := (s.send (answer 0x12 0 p)).1
/-- Whether the arrival check of a packet passes: RES is that of its elements, where a residue applies (R442, R443); the
count in front of an EXCHANGE's chunk is taken for elements like the rest (DEDUCED, log entry 77). -/
def CollRun.arrivalOk (r : CollRun) (p : Pkt) : Bool :=
  let k := if p.ty = 0x11 && !(r.op == 2 || r.op == 3) then r.sfmt else r.kind
  !(k == 3 || k == 4 || k == wireU64 || k == wireLedger) || p.j.toNat % 2 ^ 48 == resOf k p.payload

/-- A received packet put to a stream: the resent one in front (R445). -/
def StreamIn.take (x : StreamIn) (p : Pkt) : StreamIn :=
  if (pkResent p) && x.resend then { x with q := p :: x.q, resend := false } else { x with q := x.q ++ [p], last := x.last || (pkLastp p) }
/-- Whether a packet belongs to a stream that has not had its LAST (R461). -/
def StreamIn.mine (x : StreamIn) (p : Pkt) : Bool :=
  x.src == p.src && x.ty == p.ty && x.shard == (pkShard p) && x.level == (pkLevel p) && (if (pkResent p) then x.resend else !x.last)

/-- Uses the packets a delivery stream holds, at most `n` (DEDUCED, log entry 81). -/
def State.drainRecv (s : State) (rid i : Nat) : Nat → State
  | 0 => s
  | n + 1 =>
    match s.coll? rid with
    | none => s
    | some r =>
      match s.group? r.gid, r.recv[i]? with
      | some g, some x =>
        match x.q with
        | [] => s
        | p :: q =>
          if x.resend then s
          else if !r.arrivalOk p then
            ((s.onColl rid fun y => { y with recv := modAt y.recv i fun z => { z with q := q, resend := true, acked := true } }).residueFault rid r.gid p.src).askResend p
          else
            let u := s.useDelivery r g x p
            if u.2.2 ≠ stOK then u.1.endColl ((u.1.coll? rid).getD r) u.2.2
            else
              let s1 := u.1.onColl rid fun y =>
                { y with progressUs := s.clk.nowUs
                         recv := modAt y.recv i fun z => { z with q := q, pos := u.2.1, ended := (pkLastp p), acked := true } }
              (s1.ackPkt p).drainRecv rid i n
      | _, _ => s

/-- Packets of an adder's output: to the next adder, to the owner of the shard, or to every member (R435, R451). -/
def CollRun.outputs (r : CollRun) (g : Group) (x : Adder) (last : Bool) (b : Bytes) : List Pkt :=
  let n := g.members.length
  match above n x.lo x.hi with
  | some (L, lo, hi) => [r.pkt 0x10 (g.members.getD (placeRank g.low x.shard lo hi) 0) L x.shard last b]
  | none =>
    if r.op = 8 || r.op = 9 then g.members.map fun m => r.pkt 0x10 m 0xF 0 last b
    else [r.pkt 0x10 (g.members.getD x.shard 0) 0xF x.shard last b]

/-- Adds the pairs of packets an adder holds, at most `n`; `upset` fails the sum or rounding check of the first pair. -/
def State.drainAdder (s : State) (rid i : Nat) (upset : Bool) : Nat → State
  | 0 => s
  | n + 1 =>
    match s.coll? rid with
    | none => s
    | some r =>
      match s.group? r.gid, r.adders[i]? with
      | some g, some x =>
        match x.lower.q, x.upper.q with
        | p :: pq, q :: qq =>
          if x.lower.resend || x.upper.resend then s
          else
            let okP := r.arrivalOk p
            let okQ := r.arrivalOk q
            if okP && okQ && !upset then
              let b := addPayload r.kind (above g.members.length x.lo x.hi).isSome g.members.length p.payload q.payload
              let s1 := s.onColl rid fun y =>
                { y with progressUs := s.clk.nowUs, out := y.queue (r.outputs g x (pkLastp p) b)
                         adders := modAt y.adders i fun z =>
                           { z with lower := { z.lower with q := pq, acked := true }, upper := { z.upper with q := qq, acked := true },
                                    ended := (pkLastp p) } }
              ((((s1.setFails p.src 0).setFails q.src 0).ackPkt p).ackPkt q).drainAdder rid i false n
            else
              let badP := !okP || okQ
              let badQ := !okQ || okP
              let s1 := s.onColl rid fun y => { y with adders := modAt y.adders i fun z =>
                { z with lower := if badP then { z.lower with q := pq, resend := true, acked := true } else z.lower
                         upper := if badQ then { z.upper with q := qq, resend := true, acked := true } else z.upper } }
              let s2 := if !okP && !okQ then (s1.residueFault rid r.gid p.src).residueFault rid r.gid q.src
                else s1.residueFault rid r.gid (if badP then p.src else q.src)
              let s3 := if badP then (s2.askResend p).pathFail p.src r.gid else s2
              let s4 := if badQ then (s3.askResend q).pathFail q.src r.gid else s3
              if (badP && decide (3 ≤ s4.failsOf p.src)) || (badQ && decide (3 ≤ s4.failsOf q.src)) then
                (s4.endColl ((s4.coll? rid).getD r) stResidue).residueNotice g r
              else s4
        | _, _ => s
      | _, _ => s

end Sys2Proof.Machine
end

