-- ==== Sys2Proof/Machine/Flags.lean ====
section
/-! DEFINITION. The five sticky flags of a vector engine (06 R216, R217): how an element gathers them. -/

namespace Sys2Proof.Machine

/-- The flags as bits [4:0] of FLAGS: INVALID, DIVZERO, OVERFLOW, UNDERFLOW, INEXACT (DEDUCED, log entry 52). -/
def mkFlags (invalid divzero overflow underflow inexact : Bool) : BitVec 5 :=
  BitVec.ofBool inexact ++ BitVec.ofBool underflow ++ BitVec.ofBool overflow ++ BitVec.ofBool divzero ++
    BitVec.ofBool invalid

/-- Flags of one rounding (DEDUCED, log entry 52). -/
def Rnd.flags (r : Rnd) : BitVec 5 := mkFlags r.invalid false r.overflow r.underflow r.inexact

/-- An arithmetic result: the exact value, the inputs it came from, and whether a finite input gave an exact infinity.
INVALID when a NaN came from inputs none of which is NaN (06 R216, R217). -/
def arithFlags (f : Fmt) (v : Val) (ins : List Val) (divzero : Bool) : BitVec 32 × BitVec 5 :=
  let r := convRne f v
  (BitVec.ofNat 32 r.code, mkFlags (v.isNan && ins.all (fun x => !x.isNan)) divzero r.overflow r.underflow r.inexact)

/-- OR over the elements (06 R216). -/
def orFlags (l : List (BitVec 5)) : BitVec 5 := l.foldl (· ||| ·) 0

end Sys2Proof.Machine
end

