-- ==== Sys2Proof/Machine/Operands.lean ====
section
/-! DEFINITION. The operand forms of bundle slots: which bits each slot's opcode uses (07 bundle tables), effective
offsets (07 R658), operand descriptors (05 R165), slot access descriptors (07 R657) and the sources, masks and lengths
of a vector instruction (06 R199 to R208). -/

namespace Sys2Proof.Machine

/-- Bits `[hi:lo]` of a slot word. -/
def wf (w : BitVec 64) (hi lo : Nat) : Nat := bits w.toNat hi lo

/-! ### Reserved bits and fields fixed by the bundle (07 R237, R241) -/

/-- Whether a word has no bit set outside the given ranges `[hi:lo]`. -/
def onlyBits (w : BitVec 64) (rs : List (Nat × Nat)) : Bool :=
  (List.range 64).all fun i => !bitOf w.toNat i || rs.any fun r => decide (r.2 ≤ i) && decide (i ≤ r.1)

/-- Whether a control slot is one that dispatches (07 control slot, R237, R238): `tiles` is TILE_COUNT, `bundles` the
program's BUNDLES, `pc` its own index, `lasts` the END of each active loop. -/
def ctlOk (w : BitVec 64) (tiles bundles pc : Nat) (lasts : List Nat) : Bool :=
  match wf w 5 0 with
  | 0x00 => w == 0
  | 0x01 => onlyBits w [(5, 0), (19, 6)] && decide (wf w 19 17 < tiles)
  | 0x02 => onlyBits w [(5, 0), (29, 6)] && wf w 29 14 != 0
  | 0x03 => onlyBits w [(5, 0), (36, 6)] && decide (pc < wf w 36 26) && decide (wf w 36 26 < bundles) &&
            decide (lasts.length < 4) && lasts.all (fun l => decide (wf w 36 26 ≤ l))
  | 0x04 => onlyBits w [(5, 0), (20, 6)] && decide (wf w 20 10 < bundles)
  | 0x05 => onlyBits w [(5, 0), (41, 6)]
  | 0x06 => onlyBits w [(5, 0), (45, 6)]
  | 0x07 => onlyBits w [(5, 0), (39, 6)]
  | 0x08 => onlyBits w [(5, 0), (39, 6)]
  | 0x3F => onlyBits w [(5, 0)]
  | _ => false

/-- Whether a matrix slot is one that dispatches (07 matrix slot, 05 R166). -/
def matOk (w : BitVec 64) : Bool :=
  match wf w 5 0 with
  | 0x00 => w == 0
  | 0x01 => onlyBits w [(61, 0)] && wf w 39 20 != 0
  | 0x02 => onlyBits w [(58, 0)] && decide (1 ≤ wf w 40 32 ∧ wf w 40 32 ≤ 256)
  | 0x03 => onlyBits w [(60, 0)]
  | 0x04 => onlyBits w [(39, 0)]
  | 0x05 => onlyBits w [(9, 0)]
  | 0x06 => onlyBits w [(39, 0)]
  | 0x07 => onlyBits w [(39, 0)]
  | 0x08 => onlyBits w [(39, 0)]
  | 0x09 => onlyBits w [(39, 0)]
  | 0x0A => onlyBits w [(9, 0)]
  | 0x0B => onlyBits w [(9, 0)]
  | 0x0C => onlyBits w [(39, 0)]
  | _ => false

/-- Whether a vector slot is one that dispatches (07 vector slot, vector opcodes, R241; 06 R219). -/
def vecOk (w : BitVec 64) : Bool :=
  let op := wf w 7 0
  if op = 0 then w == 0
  else if (1 ≤ op && op ≤ 0x0B) || (0x10 ≤ op && op ≤ 0x14) || (0x18 ≤ op && op ≤ 0x1C) then onlyBits w [(41, 0)]
  else if (op == 0x20 || op == 0x21) || (0x28 ≤ op && op ≤ 0x2D) then onlyBits w [(40, 0)]
  else if op = 0x30 then onlyBits w [(42, 0)]
  else if op = 0x38 then onlyBits w [(61, 0)] && wf w 15 14 != 3
  else if op = 0x39 then onlyBits w [(61, 0)] && decide (wf w 15 14 < 2)
  else if op = 0x3A || op = 0x3B || op = 0x49 || op = 0x50 then onlyBits w [(46, 0)]
  else if op = 0x40 || op = 0x41 || op = 0x42 then onlyBits w [(23, 0)]
  else if op = 0x48 then onlyBits w [(19, 0)]
  else if op = 0x4A then onlyBits w [(11, 0)]
  else if op = 0x4B then onlyBits w [(7, 0)]
  else if op = 0x4C || op = 0x4D then onlyBits w [(11, 0), (43, 13)]
  else false

/-- Whether a move slot is one that dispatches (07 move slot, R237). -/
def movOk (w : BitVec 64) (tiles : Nat) : Bool :=
  let sig := !bitOf w.toNat 61 || decide (wf w 60 58 < tiles)
  match wf w 5 0 with
  | 0x00 => w == 0
  | 0x01 => onlyBits w [(61, 0)] && decide (wf w 11 6 ≤ 55) && sig
  | 0x02 => onlyBits w [(5, 0), (61, 12)] && sig
  | 0x03 => onlyBits w [(5, 0), (61, 12)] && sig
  | _ => false

/-- AREG field of each slot whose form has one; 0 names C0, which reads as zero. -/
def ctlAreg (w : BitVec 64) : Nat :=
  match wf w 5 0 with
  | 0x03 => wf w 9 6 | 0x04 => wf w 9 6 | 0x07 => wf w 13 10 | 0x08 => wf w 13 10 | _ => 0
def matAreg (w : BitVec 64) : Nat :=
  match wf w 5 0 with
  | 0x00 => 0 | 0x01 => 0 | 0x02 => wf w 14 11 | 0x03 => wf w 14 11 | _ => wf w 13 10
def vecAreg (w : BitVec 64) : Nat :=
  let op := wf w 7 0
  if op = 0x38 || op = 0x39 then wf w 19 16
  else if op = 0x3A || op = 0x3B || op = 0x49 || op = 0x50 || op = 0x4C || op = 0x4D then wf w 16 13
  else 0
def movAreg (w : BitVec 64) : Nat := wf w 15 12

/-- Effective offset: the field plus C[AREG] in u32 (07 R658). -/
def QItem.eff (q : QItem) (field : Nat) : Nat := (field + q.areg.toNat) % 2 ^ 32

/-- Whether an effective range is aligned and lies in a memory of `size` bytes. -/
def inMem (off n align size : Nat) : Bool := off % align == 0 && decide (off + n ≤ size)

/-! ### Operand descriptors (05 R165, R166) -/

/-- Bytes that `n` elements of a format take along the contiguous axis (05: S4 packs two per byte). -/
def elemBytes (f : Fmt) (n : Nat) : Nat := ceilDiv (n * f.width) 8

/-- Ranges of basin bytes that a panel addresses for K indices `lo` to `hi - 1`, `lo` a multiple of the group size. -/
def OpDesc.ranges (od : OpDesc) (f : Fmt) (lo hi : Nat) : List (Nat × Nat) :=
  let kb0 := lo / 32
  let kb1 := ceilDiv hi 32
  if od.strided then
    ((List.range (hi - lo)).map fun i => (od.base + (lo + i) * od.stride, elemBytes f od.lines)) ++
    (if f.isBlock then (List.range (kb1 - kb0)).map fun i => (od.scaleBase + (kb0 + i) * od.scaleStride, od.lines) else [])
  else
    ((List.range od.lines).map fun x => (od.base + x * od.stride + lo * f.width / 8, elemBytes f hi - lo * f.width / 8)) ++
    (if f.isBlock then (List.range od.lines).map fun x => (od.scaleBase + x * od.scaleStride + kb0, kb1 - kb0) else [])

/-- Whether a panel lies in the basin for a K extent (05 R166). -/
def OpDesc.fits (od : OpDesc) (f : Fmt) (k : Nat) : Bool :=
  (od.ranges f 0 k).all fun r => decide (r.1 + r.2 ≤ basBytes)

/-- Element (line `x`, index `k`) of a panel of core `c` (05 operand addressing, R126) (DEDUCED, log entry 53). -/
def State.panelElem (s : State) (t c : Nat) (od : OpDesc) (f : Fmt) (x k : Nat) : Val :=
  let sc := if f.isBlock then
      s.byteAt (basAddr t c (if od.strided then od.scaleBase + k / 32 * od.scaleStride + x
                             else od.scaleBase + x * od.scaleStride + k / 32))
    else 0x7F
  let i := if od.strided then x else k
  let line := if od.strided then od.base + k * od.stride else od.base + x * od.stride
  let code := if f = .s4 then (s.byteAt (basAddr t c (line + i / 2))).toNat / 16 ^ (i % 2) % 16
              else s.numAt (basAddr t c (line + i * (f.width / 8))) (f.width / 8)
  if f.isBlock then (if sc = 0xFF then .nan else (decodeF f code).scale ((sc.toNat : Int) - 127)) else decodeF f code

/-! ### Slot access descriptors (07 R657) -/

/-- A slot access descriptor's fields. -/
structure SlotAcc where
  dest : Bool
  addr : Nat
  pitch : Nat
  rows : Nat
  cols : Nat
  fmt : Nat
  omode : Nat
  sat : Bool
  scaling : Bool
  spilled : Bool
  stats : Nat
  e8 : Nat
  scaleAddr : Nat
  record : Nat
  statsAddr : Nat
  addSrc : Nat
  deriving DecidableEq, Repr

/-- Fields of 32 descriptor bytes. -/
def slotAcc (bs : Bytes) : SlotAcc :=
  let m := fld bs 13 1
  { dest := bitOf (fld bs 0 4) 31, addr := bits (fld bs 0 4) 25 0, pitch := fld bs 4 4 % 2 ^ 23, rows := fld bs 8 2,
    cols := fld bs 10 2, fmt := fld bs 12 1, omode := m % 4, sat := bitOf m 2, scaling := bitOf m 3, spilled := bitOf m 4,
    stats := bits m 6 5, e8 := fld bs 14 1, scaleAddr := fld bs 16 4, record := fld bs 20 4, statsAddr := fld bs 24 4,
    addSrc := fld bs 28 4 }

/-- The uses of a slot access descriptor. -/
inductive AccUse where
  | load | store | drain | drainAdd | vldb | vstb
  deriving DecidableEq, Repr

/-- R657: whether a slot access descriptor may be used. Fields an instruction does not use are zero, except ROWS and
COLS of VLDB and VSTB. -/
def accOk (use : AccUse) (bs : Bytes) : Bool :=
  let d := slotAcc bs
  let blk := d.fmt ≤ 2
  let isDrain := use == .drain || use == .drainAdd
  let rsv := bits (fld bs 0 4) 30 26 == 0 && fld bs 4 4 / 2 ^ 23 == 0 && fld bs 15 1 == 0 && !bitOf (fld bs 13 1) 7 &&
    decide (d.scaleAddr < 2 ^ 26) && decide (d.record < 2 ^ 26) && decide (d.statsAddr < 2 ^ 26) && decide (d.addSrc < 2 ^ 26)
  let fmts := match use with
    | .load => d.fmt == 4 || d.fmt == 3
    | .store => d.fmt == 0
    | .drain => decide (d.fmt ≤ 4)
    | .drainAdd => decide (d.fmt ≤ 4)
    | .vldb => blk
    | .vstb => blk
  let modeOk := match use with
    | .load => fld bs 13 1 == 0
    | .store => fld bs 13 1 == 0
    | .vldb => fld bs 13 1 == 0
    | .vstb => d.omode != 3 && !d.spilled && d.stats == 0
    | _ => d.omode != 3 && d.stats != 3 && (blk || !d.scaling)
  let conv := isDrain || use == .vstb
  let e8Ok := (conv && blk && !d.scaling) || d.e8 == 0
  let scaleOk := ((conv || use == .vldb) && blk) || d.scaleAddr == 0
  let recOk := if conv && blk then d.record % 16 == 0 else d.record == 0
  let statsOk := (isDrain && d.stats != 0) || d.statsAddr == 0
  let addOk := use == .drainAdd || d.addSrc == 0
  let ext := use == .vldb || use == .vstb || (decide (1 ≤ d.rows ∧ d.rows ≤ 256) && decide (1 ≤ d.cols ∧ d.cols ≤ 256))
  rsv && fmts && modeOk && e8Ok && scaleOk && recOk && statsOk && addOk && ext

/-! ### Vector operands (06) -/

/-- H32 word (r, c) of a tile register. -/
def Engine.h (e : Engine) (v r c : Nat) : BitVec 32 := sget 0 e.v (512 * v + 32 * r + c)
/-- Packed S16 element (r, c) of a tile register (06 R199). -/
def Engine.s (e : Engine) (v r c : Nat) : BitVec 16 :=
  if c % 2 = 0 then (e.h v r (c / 2)).extractLsb' 0 16 else (e.h v r (c / 2)).extractLsb' 16 16
/-- Mask bit (r, c) of mask tile `k`; M0 reads as all ones (06 R200). -/
def Engine.mask (e : Engine) (k r c : Nat) : Bool := k == 0 || bitOf (e.m.getD (16 * k + r) 0).toNat c

/-- An element width of a vector instruction: its bits as a number, H32 or packed S16. -/
def Engine.elem (e : Engine) (packed : Bool) (v r c : Nat) : Nat :=
  if packed then (e.s v r c).toNat else (e.h v r c).toNat

/-- A source operand under its modifier (06 R208; 07 R241: a packed SCAL source supplies bits [31:16]). -/
def Engine.src (e : Engine) (packed : Bool) (reg mod r c : Nat) : Nat :=
  match mod with
  | 0 => e.elem packed reg r c
  | 1 => e.elem packed reg r 0
  | 2 => e.elem packed reg 0 c
  | _ => let w := (e.sc.getD (reg % 16) 0).toNat; if packed then w / 2 ^ 16 else w

/-- The H32 source of a narrowing CVT: a SCAL source supplies bits [31:16] of the scalar, its S16 truncation (07 R241). -/
def Engine.cvtSrc (e : Engine) (reg mod r c : Nat) : Nat :=
  if mod = 3 then e.src true reg mod r c * 2 ^ 16 else e.src false reg mod r c

/-- Number of the register a source field names under its modifier: a tile register, or from 40 a scalar. -/
def srcReg (w : BitVec 64) (lo mod : Nat) : Nat :=
  if wf w (mod + 1) mod = 3 then 40 + wf w (lo + 4) lo % 16 else wf w (lo + 4) lo
/-- Number of the mask tile a three-bit field names, none for M0, which reads as all ones. -/
def maskReg (w : BitVec 64) (lo : Nat) : List Nat := if wf w (lo + 2) lo = 0 then [] else [32 + wf w (lo + 2) lo]
/-- Registers that a vector instruction reads: V0 to V31, then M0 to M7 from 32, then S0 to S15 from 40 (07 vector slot). -/
def vecReads (w : BitVec 64) : List Nat :=
  let op := wf w 7 0
  let a := srcReg w 13 18
  let b := srcReg w 20 25
  if op = 4 || op = 5 then [a, b, srcReg w 27 32] ++ maskReg w 34
  else if (1 ≤ op && op ≤ 7) || op = 0x0A || (0x10 ≤ op && op ≤ 0x14) then [a, b] ++ maskReg w 34
  else if op = 0x18 then [a, b] ++ maskReg w 27 ++ maskReg w 34
  else if 0x19 ≤ op && op ≤ 0x1B then maskReg w 13 ++ maskReg w 20 ++ maskReg w 34
  else if op = 0x1C then maskReg w 13 ++ maskReg w 34
  else if (8 ≤ op && op ≤ 0x0B) || op = 0x20 || op = 0x21 || (0x28 ≤ op && op ≤ 0x2D) || op = 0x30 then a :: maskReg w 34
  else if op = 0x38 then maskReg w 58
  else if op = 0x39 then wf w 12 8 :: maskReg w 58
  else if op = 0x3A then maskReg w 43
  else if op = 0x3B then wf w 12 8 :: maskReg w 43
  else if op = 0x41 then [wf w 12 8]
  else if op = 0x4D then [40 + wf w 11 8]
  else []
/-- Whether a register that an instruction reads holds a double-bit error (06 R232) (DESIGN CHOICE, log entry 109). -/
def Engine.regBad (e : Engine) (w : BitVec 64) : Bool := e.regErr.any fun x => x.2 == .double && (vecReads w).contains x.1
/-- Single-bit errors in the registers that an instruction reads (DESIGN CHOICE, log entry 109). -/
def Engine.regSingles (e : Engine) (w : BitVec 64) : List (Nat × WordErr) :=
  e.regErr.filter fun x => x.2 == .single && (vecReads w).contains x.1
/-- The engine with those errors corrected (DESIGN CHOICE, log entry 109). -/
def Engine.regFixed (e : Engine) (w : BitVec 64) : Engine :=
  { e with regErr := e.regErr.filter fun x => !(x.2 == .single && (vecReads w).contains x.1) }

/-- Whether element (r, c) is a tail element (06 R201). -/
def Engine.tail (e : Engine) (r c : Nat) : Bool := decide (e.lrows ≤ r) || decide (e.lcols ≤ c)

/-- What an instruction does to a destination element (06 R203, R204). -/
inductive Fate where
  | keep | zero | write
  deriving DecidableEq, Repr

/-- Fate of element (r, c) under a mask and ZM. -/
def Engine.fate (e : Engine) (k : Nat) (zm : Bool) (r c : Nat) : Fate :=
  if e.tail r c then .keep else if e.mask k r c then .write else if zm then .zero else .keep

/-- A tile register written element by element: `f` gives the new H32 word at (r, c). -/
def Engine.setReg (e : Engine) (v : Nat) (f : Nat → Nat → BitVec 32) : Engine :=
  { e with v := sput 0 e.v (512 * v) ((List.range 512).map fun i => f (i / 32) (i % 32)) }

/-- Packs two S16 codes into the H32 position they share (06 R199). -/
def pack2 (lo hi : Nat) : BitVec 32 := BitVec.ofNat 32 (lo % 2 ^ 16 + 2 ^ 16 * (hi % 2 ^ 16))

/-- Destination elements under R203 and R204; `f` gives the code of a written element. -/
def Engine.writeElems (e : Engine) (packed : Bool) (v k : Nat) (zm : Bool) (f : Nat → Nat → Nat) : Engine :=
  let el := fun r c => match e.fate k zm r c with
    | .keep => e.elem packed v r c
    | .zero => 0
    | .write => f r c
  if packed then e.setReg v fun r c => pack2 (el r (2 * c)) (el r (2 * c + 1))
  else e.setReg v fun r c => BitVec.ofNat 32 (el r c)

/-- The (r, c) of every element that is neither tail nor masked off. -/
def Engine.live (e : Engine) (packed : Bool) (k : Nat) : List (Nat × Nat) :=
  let w := if packed then 64 else 32
  ((List.range (16 * w)).map fun i => (i / w, i % w)).filter fun x => !e.tail x.1 x.2 && e.mask k x.1 x.2

/-- Mask tile `k` written bit by bit; M0 ignores writes (06 R200). -/
def Engine.setMask (e : Engine) (k : Nat) (f : Nat → Nat → Bool) : Engine :=
  if k = 0 then e
  else
    { e with m := (List.range 128).map fun i =>
        if i / 16 = k then BitVec.ofNat 64 ((List.range 64).foldl (fun a c => if f (i % 16) c then a + 2 ^ c else a) 0)
        else e.m.getD i 0 }

/-- Flags ORed into FLAGS (06 R216). -/
def Engine.gather (e : Engine) (l : List (BitVec 5)) : Engine := { e with flags := e.flags ||| orFlags l }

end Sys2Proof.Machine
end

