-- ==== Sys2Proof/Machine/KernelOps.lean ====
section
/-! DEFINITION. What the units of a kernel share: recording a fault, adding to a token counter, taking an instruction
off a queue, reads and writes of cistern and basin with the read lock (05 R167), the stop of a mover channel, and the
end of a kernel (07 R259 to R262). -/

namespace Sys2Proof.Machine

/-! ### Faults (07 kernel faults table) -/

abbrev kfOperandRange : Nat := 0x01
abbrev kfBasinHazard : Nat := 0x02
abbrev kfBadFormat : Nat := 0x03
abbrev kfSpillMismatch : Nat := 0x04
abbrev kfSpillRange : Nat := 0x05
abbrev kfBadParamDrain : Nat := 0x06
abbrev kfBadLength : Nat := 0x07
abbrev kfVrange : Nat := 0x08
abbrev kfBadBundle : Nat := 0x09
abbrev kfTokenOwner : Nat := 0x0A
abbrev kfTokenOverflow : Nat := 0x0B
abbrev kfCisternRange : Nat := 0x0C
abbrev kfChannelOwner : Nat := 0x0D
abbrev kfChecksumFence : Nat := 0x0E
abbrev kfEcc : Nat := 0x0F
abbrev kfMoverStatus : Nat := 0x10
abbrev kfDeadlock : Nat := 0x11
abbrev kfRunLimit : Nat := 0x12
abbrev kfStopped : Nat := 0x13

/-- Reply status of a fault; MOVER_STATUS gives the descriptor's. -/
def faultStatus (code st : Nat) : Nat :=
  if code = 0 then stOK
  else if code ≤ 0x0D then stBadParam
  else if code = kfChecksumFence then stChecksum
  else if code = kfEcc then stUncorrectable
  else if code = kfMoverStatus then st
  else stAborted

/-- Kernel that runs on a tile. -/
def State.kernelOn (s : State) (t : Nat) : Option Kernel :=
  ((s.tiles[t]?).bind (·.kernel)).bind fun k => s.kernel? k

/-- Changes a kernel. -/
def State.onKernel (s : State) (kid : Nat) (f : Kernel → Kernel) : State :=
  { s with work := { s.work with kernels := modFirst (fun k => k.kid == kid) f s.work.kernels } }

/-- Records a fault of kernel `kid` on physical tile `t`, once for one place. -/
def State.kfaultOf (s : State) (kid t pair code bundle status : Nat) : State :=
  s.onKernel kid fun k =>
    let fl : KFault := { code := code, ltile := k.tiles.idxOf t, pair := pair, bundle := bundle, status := status }
    if k.faults.contains fl then k else { k with faults := k.faults ++ [fl] }

/-- Records a fault of the kernel that runs on tile `t`. -/
def State.kfault (s : State) (t pair code bundle : Nat) : State :=
  match s.kernelOn t with
  | some k => s.kfaultOf k.kid t pair code bundle 0
  | none => s

/-! ### Tokens (07 R243 to R246) -/

/-- Value of a token counter. -/
def Tile.tokAt (x : Tile) (tk : Nat) : Nat := sget 0 x.tok tk

/-- Adds 1 to a counter of tile `t`, or raises TOKEN_OVERFLOW at the bundle that signals. -/
def State.tokenAdd (s : State) (t tk kid srcTile pair bundle : Nat) : State :=
  match s.tiles[t]? with
  | none => s
  | some x =>
    if x.tokAt tk = 65535 then s.kfaultOf kid srcTile pair kfTokenOverflow bundle 0
    else s.onTile t fun y => { y with tok := sset 0 y.tok tk (y.tokAt tk + 1) }

/-- Sends a signal of pair `p` of tile `t` to logical tile `lt`: at once on its own tile, behind the die-to-die writes
to another (07 R246). -/
def State.sendToken (s : State) (t p lt tk bundle : Nat) : State :=
  match s.kernelOn t with
  | none => s
  | some k =>
    let u := k.tiles.getD lt t
    if u = t then s.tokenAdd t tk k.kid t p bundle
    else { s with work := { s.work with remoteSig := s.work.remoteSig ++
      [{ src := t, dst := u, token := tk, kid := k.kid, pair := p, bundle := bundle }] } }

/-! ### Unit queues -/

/-- Removes the front of the matrix, vector or move queue of a path. -/
def State.popM (s : State) (t p : Nat) : State := s.onPath t p fun x => { x with mq := x.mq.drop 1 }
def State.popV (s : State) (t p : Nat) : State := s.onPath t p fun x => { x with vq := x.vq.drop 1 }
def State.popX (s : State) (t p : Nat) : State := s.onPath t p fun x => { x with xq := x.xq.drop 1 }

/-- Pops and records a fault: the instruction has no effect. -/
def State.faultM (s : State) (t p code bundle : Nat) : State := (s.popM t p).kfault t p code bundle
def State.faultV (s : State) (t p code bundle : Nat) : State := (s.popV t p).kfault t p code bundle
def State.faultX (s : State) (t p code bundle : Nat) : State := (s.popX t p).kfault t p code bundle

/-! ### Basin locks (05 R167) -/

/-- Ranges of basin bytes that an MMA in flight locks. -/
def MmaRun.locks (r : MmaRun) : List (Nat × Nat) :=
  match fmtOf r.fmt with
  | some f => r.oda.ranges f 0 r.kExt ++ r.odb.ranges f 0 r.kExt
  | none => []

/-- The oldest MMA in flight of core `c` that locks a byte of a basin range. -/
def State.lockedBy (s : State) (t c off n : Nat) : Option MmaRun :=
  (s.core? t c).bind fun x => x.runs.find? fun r => r.locks.any fun l => overlaps l.1 l.2 off n

/-- The MMA that locks a byte of a range of local addresses, with its tile and core. -/
def State.lockOn (s : State) (a n : Nat) : Option (Nat × Nat × MmaRun) :=
  match regionOf a with
  | .tile t _ =>
    (List.range 16).findSome? fun c =>
      let b := basAddr t c 0
      if overlaps b basBytes a n then
        (s.lockedBy t c (max a b - b) (min (a + n) (b + basBytes) - max a b)).map fun r => (t, c, r)
      else none
  | _ => none

/-- BASIN_HAZARD of a write that waits on a lock (07 R261): named by the instruction that writes when `who` gives one of the
kernel that holds the lock, else by the core and bundle that hold it. -/
def State.hazard (s : State) (who : Option (Nat × Nat × Nat × Nat)) (lk : Nat × Nat × MmaRun) : State :=
  match who.filter fun w => w.1 == lk.2.2.kid with
  | some (kid, t, p, bundle) => s.kfaultOf kid t p kfBasinHazard bundle 0
  | none => s.kfaultOf lk.2.2.kid lk.1 lk.2.1 kfBasinHazard lk.2.2.bundle 0

/-! ### Stop of a mover channel (02 R71) -/

/-- Writes STATUS and the counts back into a descriptor and clears OWN (02 R80). -/
def descBack (status mism first : Nat) : List (Nat × Bytes) :=
  [(48, toLE 1 status), (52, toLE 4 mism ++ toLE 8 first), (49, [0])]

/-- Applies field writes to the descriptor at `a`. -/
def State.putFields (s : State) (a : Nat) (l : List (Nat × Bytes)) : State :=
  l.foldl (fun st x => (st.store 2 (a + x.1) x.2).1) s

/-- Returns the descriptors `i` to `count - 1` of a request with ABORTED and OWN cleared (02 R71, R78). -/
def State.abortDescs (s : State) (r : Req) (i : Nat) : State :=
  match r.base with
  | none => s
  | some b => (List.range (r.count - i)).foldl (fun st k => st.putFields (b + 64 * (i + k)) (descBack stAborted 0 0)) s

/-! ### End of a kernel (07 R259 to R262) -/

/-- Order of R262. -/
def KFault.before (a b : KFault) : Bool :=
  decide (a.ltile < b.ltile) || (a.ltile == b.ltile && (decide (a.pair < b.pair) ||
    (a.pair == b.pair && decide (a.bundle < b.bundle))))

/-- The fault a reply reports. -/
def pickFault : List KFault → Option KFault
  | [] => none
  | x :: r => some (r.foldl (fun a b => if b.before a then b else a) x)

/-- OR of the FLAGS of every vector engine of a kernel (07 R261). -/
def State.kernelFlags (s : State) (k : Kernel) : Nat :=
  (k.tiles.foldl (fun a t => (maskList 16 k.pairMask.toNat).foldl (fun b p =>
    b ||| ((s.engine? t p).map (·.flags)).getD 0) a) (0 : BitVec 5)).toNat

/-- Whether a request belongs to a kernel. -/
def ReqSrc.ofKernel (kid : Nat) : ReqSrc → Bool
  | .command _ _ => false
  | .path _ _ _ _ k => k == kid

/-- Stops the requests of a kernel at one mover channel: the descriptor in progress and those not started return
ABORTED (02 R71, 07 R259). -/
def State.stopKernelChan (s : State) (kid mv ch : Nat) : State :=
  match s.chan? mv ch with
  | none => s
  | some c =>
    let mine := c.reqs.filter fun r => r.src.ofKernel kid
    if mine = [] then s
    else
      let s1 := mine.foldl (fun st r => st.abortDescs r r.done) s
      s1.onChan mv ch fun x =>
        { x with reqs := x.reqs.filter (fun r => !r.src.ofKernel kid)
                 act := if (x.reqs.head?).any (fun r => r.src.ofKernel kid) then none else x.act }

/-- A path after its kernel: idle, with its control registers as they stand. -/
def Path.idle (x : Path) : Path :=
  { x with active := false, prog := [], pc := 0, loops := [], ended := false, waited := false, ctl := none, mq := [],
           vq := [], xq := [], sigs := [], moves := [] }

/-- Write-back of an expansion command (08 R287). -/
def xuBack (d : UnitDone) : List (Nat × Bytes) := [(4, toLE 1 d.status), (6, toLE 2 d.omitted), (5, [0])]
/-- Write-back of a tensor descriptor: 1 SAVE, 2 RESTORE, 3 ROUNDTRIP (09 R312). -/
def spwBack (d : UnitDone) : List (Nat × Bytes) :=
  [(4, toLE 1 d.status), (6, [if d.dropped then 1 else 0]), (96, toLE 4 d.maxError.toNat)] ++
    (if d.op = 2 then [] else [(100, toLE 4 d.escaped)]) ++ [(120, toLE 8 d.streamBytes), (5, [0])]
/-- Returns the entries of a unit's request from `i` on with ABORTED and OWN cleared (02 R71). -/
def State.abortUnit (s : State) (r : UnitReq) (i : Nat) : State :=
  (List.range (r.count - i)).foldl (fun st k =>
    st.putFields (cisAddr r.t (r.base + 128 * (i + k))) [(4, toLE 1 stAborted), (5, [0])]) s
/-- Stops the requests of one unit that `mine` names: a finished entry is written back, the others return ABORTED. -/
def State.stopUnit (s : State) (l : List UnitReq) (fin : Option (List (Nat × Bytes))) (mine : UnitReq → Bool) : State :=
  l.zipIdx.foldl (fun st x =>
    if !mine x.1 then st
    else match (if x.2 = 0 then fin else none) with
      | some w => (st.putFields (cisAddr x.1.t (x.1.base + 128 * x.1.done)) w).abortUnit x.1 (x.1.done + 1)
      | none => st.abortUnit x.1 x.1.done) s
/-- How a command of the XU that has run ends when its kernel stops: a write that it has not started makes it ABORTED
(08 R289; 02 R71). -/
def UnitDone.stopped (d : UnitDone) (n : UnitNet) : UnitDone :=
  { d with status := if d.status ≠ stOK then d.status else if n.err ≠ stOK then n.err else if n.todo ≠ [] then stAborted else stOK }
/-- Stops the XU and the spillway engine of a tile for a kernel (08 R289, 09 R318). -/
def State.stopUnits (s : State) (t kid : Nat) : State :=
  match s.tiles[t]? with
  | none => s
  | some x =>
    let mine := fun (r : UnitReq) => r.kid == kid
    let s1 := (s.stopUnit x.xu (x.xuDone.map fun d => xuBack (d.stopped x.xuNet)) mine).stopUnit x.spw (x.spwDone.map spwBack) mine
    s1.onTile t fun y =>
      { y with xu := y.xu.filter fun r => r.kid != kid
               spw := y.spw.filter fun r => r.kid != kid
               xuDone := if (y.xu.head?).any mine then none else y.xuDone
               xuNet := if (y.xu.head?).any mine then UnitNet.none else y.xuNet
               spwDone := if (y.spw.head?).any mine then none else y.spwDone
               refBuf := [] }

/-- Stops every pair of a kernel on one tile (07 R259). -/
def State.stopTile (s : State) (k : Kernel) (t : Nat) : State :=
  let s1 := ((List.range 64).foldl (fun st ch => st.stopKernelChan k.kid t ch) s).stopUnits t k.kid
  s1.onTile t fun x =>
    { x with paths := x.paths.map fun p => if p.active then p.idle else p
             cores := x.cores.map fun c => { c with runs := c.runs.filter fun r => r.kid != k.kid }
             kernel := none, tokOwner := [], tok := [] }

/-- Ends a kernel: stops its pairs, then replies, or marks its step entry complete (07 R259, R261, 02 R64). -/
def State.endKernel (s : State) (k : Kernel) : State :=
  let f := pickFault k.faults
  let code := (f.map (·.code)).getD 0
  let whole := code == kfDeadlock || code == kfRunLimit || code == kfStopped
  let lt := if whole then 0 else (f.map (·.ltile)).getD 0
  let pr := if whole then 0 else (f.map (·.pair)).getD 0
  let bd := if whole then 0 else (f.map (·.bundle)).getD 0
  let status := faultStatus code ((f.map (·.status)).getD 0)
  let r0 := code + lt * 2 ^ 8 + pr * 2 ^ 11 + bd * 2 ^ 16
  let r1 := s.kernelFlags k
  let r2 := sat32 (s.clk.nowUs - k.startUs) + min (k.faults.length - 1) 65535 * 2 ^ 32
  let s1 := k.tiles.foldl (fun st t => st.stopTile k t) s
  let s2 : State := { s1 with work := { s1.work with
      kernels := s1.work.kernels.filter (fun x => x.kid != k.kid)
      remoteSig := s1.work.remoteSig.filter (fun x => x.kid != k.kid) } }
  match k.entry with
  | some (h, i) => s2.onJob h fun j => { j with entries := modAt j.entries i fun _ => .done status }
  | none => s2.finishWait (.kernel k.kid) status r0 r1 r2

/-- Mover channel that a remote request belongs to. -/
def RemoteFor.chan : RemoteFor → Option (Nat × Nat)
  | .index mv ch => some (mv, ch)
  | .read mv ch _ _ _ => some (mv, ch)
  | .cmp mv ch _ _ _ _ => some (mv, ch)
  | .cmpWith mv ch _ _ _ _ => some (mv, ch)
  | .write mv ch => some (mv, ch)
  | .atomic mv ch _ _ => some (mv, ch)
  | .unitRead _ _ => none
  | .unitWrite _ => none
  | .reset _ _ => none
  | .parity _ => none
  | .rebuild _ _ => none

/-- Whether a started remote burst of a kernel's movers or expansion units has no response yet. -/
def State.kernelRemotes (s : State) (kid : Nat) : Bool :=
  (s.tiles.any fun x => (x.xu.head?).any (fun r => r.kid == kid) && x.xuNet.waiting != 0) ||
  s.fab.remotes.any fun r => r.what.chan.any fun c =>
    ((s.chan? c.1 c.2).bind (·.reqs.head?)).any fun q => q.src.ofKernel kid

/-- Stops a kernel for the faults it then holds: at once, or as soon as every started write is acknowledged
(02 R71, 07 R259). -/
def State.stopKernel (s : State) (k : Kernel) : State :=
  if s.kernelRemotes k.kid then s.onKernel k.kid fun _ => k else s.endKernel k

/-- Whether nothing of a kernel is left to do on one tile. -/
def Tile.quiet (x : Tile) (kid : Nat) : Bool :=
  (x.paths.all fun p => !p.active || (p.ctl.isNone && p.mq.isEmpty && p.vq.isEmpty && p.xq.isEmpty && p.moves.isEmpty &&
    p.sigs.isEmpty)) &&
  (x.cores.all fun c => c.runs.all fun r => r.kid != kid) && (x.xu.all fun r => r.kid != kid) &&
  (x.spw.all fun r => r.kid != kid)

/-- Whether every issue path of a kernel has dispatched END and every write of it is acknowledged (07 R259). -/
def State.kernelDone (s : State) (k : Kernel) : Bool :=
  (k.tiles.all fun t => (s.tiles[t]?).any fun x => x.quiet k.kid && x.paths.all fun p => !p.active || p.ended) &&
  s.work.remoteSig.all fun x => x.kid != k.kid

end Sys2Proof.Machine
end

