-- ==== Sys2Proof/Machine/MoverOps.lean ====
section
/-! DEFINITION. Mover descriptors and what the movers share: the descriptor's fields and iteration order (02 R74), its
checks (02 R75, R76, R655; 10 R339, R341, R345), reads and writes of one burst (02 R79; 11 R382 to R392), and the end of
a descriptor and of a request (02 R77, R78, R80, R82). -/

namespace Sys2Proof.Machine

/-! ### Fields -/

/-- Fields of 64 descriptor bytes. -/
def descOf (b : Bytes) : Desc :=
  let c := fld b 1 1
  { op := fld b 0 1, event := bitOf c 0, chain := bitOf c 1, dims := bits c 3 2, prio := fld b 2 1 % 8,
    fillWidth := fld b 3 1, length0 := fld b 4 4, src := fld b 8 8, dst := fld b 16 8, count1 := fld b 24 2,
    count2 := fld b 26 2, srcS1 := fld b 32 4, srcS2 := fld b 36 4, dstS1 := fld b 40 4, dstS2 := fld b 44 4 }

/-- Index list address of a GATHER. -/
def Desc.listAt (d : Desc) : Nat := d.srcS1 + d.srcS2 * 2 ^ 32
/-- Whether a descriptor is a GATHER. -/
def Desc.isGather (d : Desc) : Bool := d.op == 4
/-- Rows, and bytes per row, of a descriptor; a GATHER's rows are its elements. -/
def Desc.rows (d : Desc) : Nat :=
  if d.isGather then d.dstS1
  else (if d.dims = 0 then 1 else d.count1) * (if d.dims = 2 then d.count2 else 1)
def Desc.rowLen (d : Desc) : Nat := if d.isGather then d.dstS2 else d.length0
/-- Bytes a descriptor moves. -/
def Desc.bytes (d : Desc) : Nat := d.rows * d.rowLen
/-- Row `i` of a side: plane and row in the plane (02 R74). -/
def rowAt (base s1 s2 dims count1 i : Nat) : Nat :=
  if dims = 0 then base else base + i % count1 * s1 + i / count1 * s2
/-- Address of row `i` at the destination. -/
def Desc.dstRow (d : Desc) (i : Nat) : Nat :=
  if d.isGather then d.dst + i * d.dstS2 else rowAt d.dst d.dstS1 d.dstS2 d.dims d.count1 i
/-- Address of row `i` at the source; `list` is the index list of a GATHER. -/
def Desc.srcRow (d : Desc) (list : Bytes) (i : Nat) : Nat :=
  if d.isGather then d.src + fld list (4 * i) 4 * d.dstS2 else rowAt d.src d.srcS1 d.srcS2 d.dims d.count1 i
/-- Whether an operation reads its SRC, and writes its DST. -/
def Desc.readsSrc (d : Desc) : Bool := d.op != 2
def Desc.writesDst (d : Desc) : Bool := d.op != 3

/-- Step 1 of R655: R9 and R75 except its last item (DEDUCED, log entry 59). -/
def descOk (b : Bytes) : Bool :=
  let d := descOf b
  let counts :=
    if d.isGather then d.dims == 0 && d.length0 == 0 && d.count1 == 0 && d.count2 == 0 && d.dstS1 != 0 &&
      decide (1 ≤ d.dstS2 ∧ d.dstS2 ≤ 65536)
    else d.length0 != 0 && d.dims != 3 && (if d.dims = 0 then d.count1 == 0 else d.count1 != 0) &&
      (if d.dims = 2 then d.count2 != 0 else d.count2 == 0)
  decide (1 ≤ d.op ∧ d.op ≤ 4) && decide (fld b 1 1 < 16) && decide (fld b 2 1 < 8) && zeroAt b 28 4 &&
  decide (fld b 49 1 < 2) && zeroAt b 50 2 && counts && decide (d.bytes ≤ 2 ^ 40) &&
  (if d.op = 2 then [1, 2, 4, 8].contains d.fillWidth && d.length0 % d.fillWidth == 0 else d.fillWidth == 0)

/-- A generated descriptor's bytes (02 R656). -/
def genDesc (op dims chain width len src dst count1 s1 d1 : Nat) : Bytes :=
  toLE 1 op ++ toLE 1 (dims * 4 + chain * 2) ++ toLE 1 0 ++ toLE 1 width ++ toLE 4 len ++ toLE 8 src ++ toLE 8 dst ++
    toLE 2 count1 ++ toLE 2 0 ++ toLE 4 0 ++ toLE 4 s1 ++ toLE 4 0 ++ toLE 4 d1 ++ toLE 4 0 ++ zeros 16

/-! ### Who runs a request -/

/-- Tenant of a request. -/
def State.reqTenant (s : State) : ReqSrc → Nat
  | .command _ t => t
  | .path _ _ _ _ k => ((s.kernel? k).map (·.tenant)).getD 0

/-- Job id a request to another module carries, or none where R388 gives none. -/
def State.reqJob (s : State) (src : ReqSrc) (m right a n : Nat) : Option (BitVec 64) :=
  match src with
  | .command _ t => s.windowJob t m right a n
  | .path _ _ _ _ k => ((s.kernel? k).bind (·.entry)).bind fun e => (s.job? e.1).map (·.jobId)

/-- Whether a tenant or kernel may send to module `m` at all (02 R76; 11 R388). -/
def State.mayReach (s : State) (src : ReqSrc) (m : Nat) : Bool :=
  match src with
  | .command _ t => s.work.jobs.any fun j => j.tenant == t && j.st == .running && j.members.contains m
  | .path _ _ _ _ k => ((s.kernel? k).bind (·.entry)).isSome

/-- R76 and the rules for addresses, for one range (10 R320, R321; 11 R383, R384, R387, R388). -/
def State.rangeStatus (s : State) (src : ReqSrc) (hub wr : Bool) (addr n : Nat) : Nat :=
  match s.placeOf addr n with
  | .loc a => if (s.tenant? (s.reqTenant src)).any fun t => inPart t hub wr a n then stOK else stDenied
  | .remote m a =>
    let right := if wr then 2 else 1
    let may := match src with
      | .command _ t => s.ownsRange t m right a n
      | .path _ _ _ _ _ => (s.reqJob src m right a n).isSome
    if may then stOK else stDenied
  | .atomicPort m _ => if s.mayReach src m then stOK else stDenied
  | .fenceReg m => if s.mayReach src m then stOK else stDenied
  | .bad st => st

/-- First status other than OK of a list of ranges. -/
def State.rangesStatus (s : State) (src : ReqSrc) (hub wr : Bool) (l : List (Nat × Nat)) : Nat :=
  ((l.map fun r => s.rangeStatus src hub wr r.1 r.2).find? (· != stOK)).getD stOK

/-- Ranges of the rows of a descriptor. -/
def Desc.dstRanges (d : Desc) : List (Nat × Nat) := (List.range d.rows).map fun i => (d.dstRow i, d.rowLen)
def Desc.srcRanges (d : Desc) (list : Bytes) : List (Nat × Nat) :=
  (List.range d.rows).map fun i => (d.srcRow list i, d.rowLen)

/-- Step 2 of R655 (DEDUCED, log entry 59). -/
def State.descStatus2 (s : State) (src : ReqSrc) (hub : Bool) (d : Desc) : Nat :=
  let a := if d.isGather then s.rangeStatus src hub false d.listAt (4 * d.dstS1)
           else if d.readsSrc then s.rangesStatus src hub false (d.srcRanges []) else stOK
  if a ≠ stOK then a else s.rangesStatus src hub d.writesDst d.dstRanges

/-- A 64-bit address with a local offset in place of a global address of this module (11 R382). -/
def State.normAddr (s : State) (a n : Nat) : Nat :=
  match s.placeOf a n with
  | .loc x => x
  | _ => a

/-- Local ranges of a list. -/
def State.localRanges (s : State) (l : List (Nat × Nat)) : List (Nat × Nat) :=
  l.filterMap fun r => match s.placeOf r.1 r.2 with
    | .loc a => some (a, r.2)
    | _ => none

/-- Maximal runs of destination bytes in iteration order (10 R341). -/
def runsOf : List (Nat × Nat) → List (Nat × Nat)
  | [] => []
  | r :: l =>
    match runsOf l with
    | [] => [r]
    | x :: y => if r.1 + r.2 = x.1 then (r.1, r.2 + x.2) :: y else r :: x :: y

/-- Whether a local address lies in a staging quarter. -/
def inStaging (a : Nat) : Bool := match regionOf a with
  | .quarter _ => true
  | _ => false

/-- Step 4 of R655, then R341, R339 and R345, before any write (DEDUCED, log entry 59). -/
def State.descStatus4 (s : State) (d : Desc) (list : Bytes) : Nat :=
  let dst := d.dstRanges
  let src := if d.readsSrc then d.srcRanges list else []
  let srcAll := (if d.isGather then [(d.listAt, 4 * d.dstS1)] else []) ++ src
  let norm := fun (r : Nat × Nat) => (s.normAddr r.1 r.2, r.2)
  let hit := (d.op == 1 || d.op == 4) &&
    dst.any fun x => srcAll.any fun y => overlaps (norm x).1 x.2 (norm y).1 y.2
  let ldst := s.localRanges dst
  let stg := if d.writesDst then (runsOf ldst).filter fun r => inStaging r.1 else []
  let locals := ldst ++ s.localRanges srcAll
  if hit || stg.any (fun r => r.1 % 4096 != 0 || r.2 % 4096 != 0) then stBadParam
  else if locals.any (fun r => hbmAny s.groupOff r.1 r.2) then stNoResource
  else if stg != [] && s.resv.sparePct == 0 then stNoResource
  else stOK

/-! ### Reads and writes of one burst -/

/-- SOURCE code of a mover (10 error record). -/
def mvSrc (mv : Nat) : Nat := if mv = 8 then 2 else 1

/-- Whether a local range must wait: its memory group initialises (10 R338) or the reservoir is not ready (10 R347). -/
def State.mustWait (s : State) (a n : Nat) : Bool :=
  hbmAny (fun g => !s.groupReady g) a n || ((inStaging a || regionOf a == .resRec) && !s.resv.stagingReady)

/-- A local read for a tenant: STAGING_USED of the reservoir record is the reader's own, as the last rewrite gave it (10 R337,
R348). -/
def State.loadFor (s : State) (src tn a n : Nat) : State × Option Bytes :=
  let r := s.load src a n
  if regionOf a = .resRec then
    (r.1, r.2.map fun bs => (List.range n).map fun i =>
      let o := a + i - resRecAddr
      if 0x20 ≤ o && o < 0x28 then (toLE 8 (s.resv.resUsed.getD (tn - 1) 0)).getD (o - 0x20) 0 else bs.getD i 0)
  else r

/-- Changes the descriptor in progress of a channel. -/
def State.onAct (s : State) (mv ch : Nat) (f : Active → Active) : State :=
  s.onChan mv ch fun c => { c with act := c.act.map f }

/-- Ends the descriptor in progress early with a status; its started bursts land, but for those of a staging page that is
not whole (10 R343). -/
def State.failAct (s : State) (mv ch st : Nat) : State :=
  s.onAct mv ch fun a => { a with status := if a.status = stOK then st else a.status, page := [] }

/-- One more remote request of a channel is outstanding, or one less. -/
def State.waitMore (s : State) (mv ch : Nat) : State := s.onAct mv ch fun a => { a with waiting := a.waiting + 1 }
def State.waitLess (s : State) (mv ch : Nat) : State := s.onAct mv ch fun a => { a with waiting := a.waiting - 1 }

/-- A remote request for a channel; none when no tag is free, and MEMBER_LOST at once when the destination cannot be
reached (11 R402, R408). -/
def State.chanRequest (s : State) (mv ch : Nat) (p : Pkt) (what : RemoteFor) : Option State :=
  (s.request p what).map fun r => if r.2 then r.1.waitMore mv ch else r.1.failAct mv ch stMemberLost

/-- Virtual channel of remote writes (11 R397). -/
def writeVc (prio : Nat) : Nat := if 3 ≤ prio then 5 else 7

/-- A request packet. -/
def reqPkt (ty vc dest : Nat) (job : BitVec 64) (a len code : Nat) (payload : Bytes) : Pkt :=
  { pktBlank with ty := ty, vc := vc, dest := dest, j := job, a := BitVec.ofNat 48 a, len := len, code := code,
                  payload := payload }

/-- Issues a READ_REQ for the part of a remote range up to its next 512-byte boundary; `what` gets the rest (11 R390). -/
def State.readReq (s : State) (mv ch m : Nat) (job : BitVec 64) (a n : Nat) (what : Option (Nat × Nat) → RemoteFor) :
    Option State :=
  let k := min n (512 - a % 512)
  s.chanRequest mv ch (reqPkt 1 5 m job a k 0 []) (what (if k < n then some (a + k, n - k) else none))

/-- Old value of an atomic extended to 64 bits (11 R393) (DEDUCED, log entry 84). -/
def extAtomic (kind v : Nat) : Nat := if kind = 2 && bitOf v 31 then v + (2 ^ 64 - 2 ^ 32) else v
/-- Bytes of an atomic type. -/
def atomicSize (kind : Nat) : Nat := if kind % 2 = 0 then 4 else 8

/-- Status of an atomic record, its checks first (11 atomic record, R384, R390). -/
def State.atomicStatus (s : State) (src : ReqSrc) (m : Nat) (r : Bytes) : Nat :=
  let op := fld r 0 1
  let k := fld r 1 1
  let off := fld r 8 8
  let res := fld r 32 8
  if !(decide (1 ≤ op ∧ op ≤ 4)) || 4 ≤ k || !zeroAt r 2 6 || 2 ^ 48 ≤ off || res % 8 ≠ 0 || 2 ^ 63 ≤ res || !zeroAt r 40 24 ||
      off % atomicSize k ≠ 0 then stBadParam
  else if hbmEnd < off + atomicSize k || (s.reqJob src m 4 off (atomicSize k)).isNone then stDenied
  else if res ≠ 0 && !(s.tenant? (s.reqTenant src)).any fun t => inPart t false true res 8 then stDenied
  else stOK

/-- Writes bytes of a burst to a 64-bit address for the channel's request. None: the write must wait (10 R338; 05 R167;
11 R402). -/
def State.moverPut (s : State) (mv ch : Nat) (src : ReqSrc) (prio addr : Nat) (bs : Bytes) : Option State :=
  match s.placeOf addr bs.length with
  | .bad st => some (s.failAct mv ch st)
  | .fenceReg _ => some s
  | .loc a =>
    if s.mustWait a bs.length || (s.lockOn a bs.length).isSome then none
    else if inStaging a then
      if s.resv.resHold then none
      else if s.resv.sparePct = 0 then some (s.failAct mv ch stNoResource)
      else
        let pg := (((s.chan? mv ch).bind (·.act)).map (·.page)).getD [] ++ bs
        if pg.length < 4096 then some (s.onAct mv ch fun x => { x with page := pg })
        else some ((s.store (mvSrc mv) (a + bs.length - 4096) pg).1.onAct mv ch fun x => { x with page := [] })
    else
      let r := s.store (mvSrc mv) a bs
      some (if r.2 then r.1 else r.1.failAct mv ch stUncorrectable)
  | .remote m a =>
    match s.reqJob src m 2 a bs.length with
    | none => some (s.failAct mv ch stDenied)
    | some j => ((s.chanRequest mv ch (reqPkt 2 (writeVc prio) m j a bs.length 0 bs) (.write mv ch))).map
        fun st => st.dropLines m a bs.length
  | .atomicPort m off =>
    if off ≠ 0 || bs.length ≠ 64 then some (s.failAct mv ch stBadParam)
    else
      let st := s.atomicStatus src m bs
      if st ≠ stOK then some (s.failAct mv ch st)
      else
        let k := fld bs 1 1
        let o := fld bs 8 8
        let j := (s.reqJob src m 4 o (atomicSize k)).getD 0
        (s.chanRequest mv ch (reqPkt 3 5 m j o 16 (fld bs 0 1 + 16 * k) (fldBytes bs 16 16))
          (.atomic mv ch (fld bs 32 8) k)).map fun st => st.dropLines m o (atomicSize k)

/-- A read of the path fence register of peer `m`: none while a write or atomic to it is not acknowledged (11 R401)
(DEDUCED, log entry 75). -/
def State.fenceRead (s : State) (m : Nat) : Option (State × Bytes) :=
  if s.fab.remotes.any fun r => r.dest == m && (match r.what with
      | .write _ _ => true
      | .atomic _ _ _ _ => true
      | .unitWrite _ => true
      | _ => false) then none
  else
    let s1 := s.dropPeer m
    let n := s1.fab.fenceCount + 1
    some ({ s1 with fab := { s1.fab with fenceCount := n } }, toLE 8 n.toNat)

/-- BASIN_HAZARD of a write of a mover's request that waits on a read lock (05 R167). -/
def State.putHazard (s : State) (src : ReqSrc) (dst n : Nat) : State :=
  match s.placeOf dst n with
  | .loc a =>
    match s.lockOn a n with
    | some lk =>
      s.hazard (match src with
        | .path t p _ b k => some (k, t, p, b)
        | .command _ _ => none) lk
    | none => s
  | _ => s

/-- What a read of a burst's source gives at once: the bytes, an error status, nothing yet, or a request to a peer. -/
inductive Got where
  | data (bs : Bytes)
  | err (st : Nat)
  | later
  | ask (m a : Nat) (job : BitVec 64)
  deriving DecidableEq, Repr

/-- Reads `n` bytes of a 64-bit address for the channel's request (DESIGN CHOICE, log entry 10). -/
def State.moverGet (s : State) (mv : Nat) (src : ReqSrc) (addr n : Nat) : State × Got :=
  match s.placeOf addr n with
  | .bad st => (s, .err st)
  | .fenceReg m =>
    match s.fenceRead m with
    | none => (s, .later)
    | some r => (r.1, .data ((r.2.drop (addr % 8)).take n))
  | .atomicPort _ off =>
    let d := s.draw
    (d.2, .data ((List.range n).map fun i => Config.portByte d.1 (off + i)))
  | .loc a =>
    if s.mustWait a n then (s, .later)
    else match s.loadFor (mvSrc mv) (s.reqTenant src) a n with
      | (s1, some bs) => (s1, .data bs)
      | (s1, none) => (s1, .err stUncorrectable)
  | .remote m a =>
    match s.buffered m a n with
    | some bs => (s, .data bs)
    | none =>
      match s.reqJob src m 1 a n with
      | some j => (s, .ask m a j)
      | none => (s, .err stDenied)

/-- The lower of two positions, where there are two. -/
def lower? : Option Nat → Option Nat → Option Nat
  | some a, some b => some (min a b)
  | some a, none => some a
  | none, b => b
/-- Adds the compared bytes of a burst at position `off` of the iteration order (02 R74). -/
def Active.compared (a : Active) (off : Nat) (x y : Bytes) : Active :=
  let d := (List.range x.length).filter fun i => x.getD i 0 != y.getD i 0
  { a with mism := sat32 (a.mism + d.length), first := lower? a.first (d.head?.map (off + ·)) }
/-- Whether a stopped descriptor has filled its last staging page (02 R71). -/
def Active.halted (a : Active) : Bool := a.cut && a.page.isEmpty && a.waiting == 0

/-! ### The end of a descriptor -/

/-- The request at the head of a channel. -/
def State.headReq (s : State) (mv ch : Nat) : Option Req := (s.chan? mv ch).bind (·.reqs.head?)

/-- Completes a move-slot instruction with the first status of its requests other than OK: its token signal, or
MOVER_STATUS (07 R242, R243). -/
def State.moveEnd (s : State) (t p seq bundle kid status : Nat) : State :=
  match (s.path? t p).bind fun x => x.moves.find? fun m => m.seq == seq with
  | none => s
  | some m =>
    let ok := status == stOK || status == stMiscompare
    let s1 := s.onPath t p fun y => { y with
      moves := dropFirst (fun k => k.seq == seq) y.moves
      sigs := match m.sig, ok with
        | some (lt, tk), true => y.sigs ++ [{ token := tk, ttile := lt, mUpTo := 0, vUpTo := 0, xUpTo := 0, bundle := bundle }]
        | _, _ => y.sigs }
    if ok then s1 else s1.kfaultOf kid t p kfMoverStatus bundle status

/-- Replies to the command of a request, or completes the move-slot instruction of one (02 R656; 07 R242). -/
def State.reqEnd (s : State) (r : Req) : State :=
  let st := (r.bad.map (·.2)).getD stOK
  match r.src with
  | .command uid _ =>
    match s.host.running.find? fun c => c.uid == uid with
    | none => s
    | some c =>
      if c.opcode = 0x0201 then s.finish c st ((r.bad.map (·.1)).getD 0) 0 0
      else if c.opcode = 0x0203 then s.finish c st r.mism (r.first.getD 0xFFFFFFFFFFFFFFFF) 0
      else s.finish c st 0 0 0
  | .path t p seq bundle kid => s.moveEnd t p seq bundle kid (r.fail.getD st)

/-- Aborts the descriptors of a request from its `done`-th on and ends it (02 R71, R78). -/
def State.abortReq (s : State) (r : Req) : State :=
  (s.abortDescs r r.done).reqEnd { r with bad := if r.bad.isSome then r.bad else some (r.done, stAborted)
                                          fail := if r.fail.isSome then r.fail else some stAborted }

/-- Ends every request of a channel unstarted, closes the channel and replies to CHANNEL_DISABLE (02 R71, R83). -/
def State.closeChan (s : State) (mv ch : Nat) : State :=
  match s.chan? mv ch with
  | none => s
  | some c =>
    let s1 := s.onChan mv ch fun x => { x with reqs := [], act := none, enabled := false, stopping := false }
    (c.reqs.foldl State.abortReq s1).finishWait (.chanStop mv ch) stOK 0 0 0

/-- Stop rule of a channel: no further burst, but for those that a staging page in progress still needs; the descriptor in
progress ends early unless all its bursts are issued; the channel closes once nothing is outstanding (02 R71, R72; 10 R343). -/
def State.stopChan (s : State) (mv ch : Nat) : State :=
  match s.chan? mv ch with
  | none => s
  | some c =>
    match c.act with
    | none => s.closeChan mv ch
    | some a =>
      s.onChan mv ch fun x => { x with stopping := true, act := some (if a.pos < a.total && a.status = stOK then
          (if a.page = [] && !(inStaging a.d.dst && a.waiting != 0) then { a with status := stAborted } else { a with cut := true }) else a) }

/-- Raises the channel event (02 R82). -/
def State.chanEvent (s : State) (mv ch tenant : Nat) : State :=
  let s1 := s.onMover mv fun m => { m with events := m.events ++ [ch] }
  match s1.chan? mv ch with
  | some c =>
    if 8 ≤ c.vector && c.vector < 16 then s1.signal 0 tenant c.vector else s1
  | none => s1

end Sys2Proof.Machine
end

