-- ==== Sys2Proof/Machine/KvOps.lean ====
section
/-! DEFINITION. KV caches (15): the table area, pages and frames, allocation, truncation, the walk that writes mover
descriptors into the cistern, and the end of a rollout. -/

namespace Sys2Proof.Machine

/-! ### Places (15 R534, R536, R537) -/

/-- Bytes of a page and of a frame. -/
def Kv.page (k : Kv) : Nat := 1024 * k.dim
def Kv.frameBytes (k : Kv) : Nat := k.layers * k.heads * k.page
/-- Sequence record, page tables, bitmap and size of the table area. -/
def Kv.recAt (k : Kv) (q : Nat) : Nat := k.table + 4096 + 64 * q
def Kv.ptBase (k : Kv) : Nat := k.table + 4096 + ceilDiv (64 * k.maxSeqs) 4096 * 4096
def Kv.entryAt (k : Kv) (q n : Nat) : Nat := k.ptBase + 16384 * q + 4 * n
def Kv.bitmap (k : Kv) : Nat := k.ptBase + 16384 * k.maxSeqs
def Kv.tableBytes (k : Kv) : Nat := k.bitmap - k.table + ceilDiv (ceilDiv k.frames 8) 4096 * 4096
/-- Address of frame `f`. -/
def Kv.frameAt (k : Kv) (f : Nat) : Nat := k.pool + f * k.frameBytes
/-- Offset of the page of a layer and head in a frame. -/
def Kv.pageOff (k : Kv) (l h : Nat) : Nat := (l * k.heads + h) * k.page

/-- STATE, PAGES, LENGTH and ROLLOUTS of a sequence. -/
def State.kvState (s : State) (k : Kv) (q : Nat) : Nat := s.numAt (k.recAt q) 1
def State.kvPages (s : State) (k : Kv) (q : Nat) : Nat := s.numAt (k.recAt q + 2) 2
def State.kvLen (s : State) (k : Kv) (q : Nat) : Nat := s.numAt (k.recAt q + 4) 4
def State.kvRolls (s : State) (k : Kv) (q : Nat) : Nat := s.numAt (k.recAt q + 8) 8
def State.kvUsed (s : State) (k : Kv) : Nat := s.numAt (k.table + 48) 4
/-- Frame of a logical page. -/
def State.kvFrame (s : State) (k : Kv) (q n : Nat) : Nat := s.numAt (k.entryAt q n) 4 % 2 ^ 24
/-- Writes a field of the table area or the pool. -/
def State.kvPut (s : State) (a : Nat) (b : Bytes) : State := (s.store 5 a b).1
def State.kvSet (s : State) (a n v : Nat) : State := s.kvPut a (toLE n v)

/-- Reads what a cache command needs of the table area: the header, the records of `recs`, the page tables of `pts` and
the bitmap. UNCORRECTABLE where a line of it cannot be read, NO_RESOURCE where its memory is off; it waits while its memory is
being initialised (10 R327, R338, R339). -/
def State.kvTables (s : State) (k : Kv) (recs pts : List Nat) : State × Nat :=
  if hbmAny s.groupOff k.table k.tableBytes then (s, stNoResource)
  else if hbmAny s.groupInit k.table k.tableBytes then (s, stWait)
  else
    let r := s.loadAll 5 ([(k.table, 64)] ++ recs.map (fun q => (k.recAt q, 64)) ++ pts.map (fun q => (k.entryAt q 0, 16384)) ++
      [(k.bitmap, ceilDiv k.frames 8)])
    (r.1, if r.2 then stOK else stUncorrectable)
/-- Bytes of the K rows and V columns of token slots `t` to `t + n - 1` of the page at `page` (R534). -/
def Kv.slotRanges (k : Kv) (page t n : Nat) : List (Nat × Nat) :=
  (page + 2 * k.dim * t, 2 * k.dim * n) :: (List.range k.dim).map fun d => (page + 512 * k.dim + 512 * d + 2 * t, 2 * n)
/-- The same of every layer and head of frame `f`. -/
def Kv.frameRanges (k : Kv) (f t n : Nat) : List (Nat × Nat) :=
  (List.range (k.layers * k.heads)).flatMap fun i => k.slotRanges (k.frameAt f + i * k.page) t n

/-! ### Frames (R535, R539) -/

/-- Whether a frame is in use. -/
def State.kvInUse (s : State) (k : Kv) (f : Nat) : Bool := bitOf (s.byteAt (k.bitmap + f / 8)).toNat (f % 8)
/-- Marks a frame used or free. -/
def State.kvMark (s : State) (k : Kv) (f : Nat) (use : Bool) : State :=
  let b := (s.byteAt (k.bitmap + f / 8)).toNat
  let b1 := if bitOf b (f % 8) then b - 2 ^ (f % 8) else b
  let s1 := s.kvSet (k.bitmap + f / 8) 1 (if use then b1 + 2 ^ (f % 8) else b1)
  s1.kvSet (k.table + 48) 4 (if use then s.kvUsed k + 1 else s.kvUsed k - 1)
/-- Gives a sequence its next page: the lowest free frame, zeroed (R535, R539). -/
def State.kvGrow (s : State) (k : Kv) (q : Nat) : State :=
  match (List.range k.frames).find? fun f => !s.kvInUse k f with
  | none => s
  | some f =>
    let n := s.kvPages k q
    let s1 := (s.zeroLanded (k.frameAt f) k.frameBytes).kvMark k f true
    (s1.kvSet (k.entryAt q n) 4 (f + 2 ^ 31)).kvSet (k.recAt q + 2) 2 (n + 1)
/-- Pages a sequence needs beyond those it has, for a length. -/
def State.kvNeed (s : State) (k : Kv) (q len : Nat) : Nat := ceilDiv len 256 - s.kvPages k q
/-- Gives a sequence the pages of a length. -/
def State.kvAlloc (s : State) (k : Kv) (q len : Nat) : State :=
  (List.range (s.kvNeed k q len)).foldl (fun st _ => st.kvGrow k q) s
/-- Frees the logical pages from `n` on (R542). -/
def State.kvDrop (s : State) (k : Kv) (q n : Nat) : State :=
  let l := (List.range (s.kvPages k q)).filter fun i => decide (n ≤ i)
  let s1 := l.foldl (fun st i => (st.kvMark k (st.kvFrame k q i) false).kvSet (k.entryAt q i) 4 0) s
  s1.kvSet (k.recAt q + 2) 2 (min n (s.kvPages k q))

/-- Zeroes token slots `t` to 255 of a frame's pages: K rows and V columns (R542). Part of a poisoned line is not written
(10 R328). -/
def State.kvBlank (s : State) (k : Kv) (f t : Nat) : State :=
  (k.frameRanges f t (256 - t)).foldl (fun st r => st.kvPut r.1 (zeros r.2)) s
/-- Whether the lines that a cut to `keep` positions writes in part take their writes (R542; 10 R328). -/
def State.kvCutOk (s : State) (k : Kv) (q keep : Nat) : State × Bool :=
  if keep % 256 = 0 then (s, true) else s.partAll 5 (k.frameRanges (s.kvFrame k q (keep / 256)) (keep % 256) (256 - keep % 256))
/-- Cuts a sequence to `keep` positions (R542). -/
def State.kvTruncate (s : State) (k : Kv) (q keep : Nat) : State :=
  let s1 := s.kvDrop k q (ceilDiv keep 256)
  let s2 :=
    if keep % 256 = 0 then s1
    else s1.kvBlank k (s1.kvFrame k q (keep / 256)) (keep % 256)
  s2.kvSet (k.recAt q + 4) 4 keep
/-- Frees all of a sequence (R542 MODE 0). -/
def State.kvFree (s : State) (k : Kv) (q : Nat) : State := (s.kvDrop k q 0).kvPut (k.recAt q) (zeros 64)

/-- Writes one position's K row and V column of a layer and head (R534). -/
def State.kvWrite (s : State) (k : Kv) (q pos l h : Nat) (kRow vRow : Bytes) : State :=
  let page := k.frameAt (s.kvFrame k q (pos / 256)) + k.pageOff l h
  let s1 := s.kvPut (page + 2 * k.dim * (pos % 256)) kRow
  (List.range k.dim).foldl (fun st d =>
    st.kvPut (page + 512 * k.dim + 512 * d + 2 * (pos % 256)) ((vRow.drop (2 * d)).take 2)) s1

/-! ### Rollouts (R549, R551) -/

/-- Cache by handle. -/
def State.kv? (s : State) (h : Nat) : Option Kv := s.media.kvs.find? fun k => k.handle == h
/-- Rollout of a job. -/
def State.rolloutOf (s : State) (job : Nat) : Option Rollout := s.media.rollouts.find? fun r => r.job == job

/-- Ends a rollout: lengths and ROLLOUTS move on, or every sequence goes back to its length at the start; the locks
open; the command replies (R549, R551). Where the table area cannot be read, the sequences stand as they are and the
reply is UNCORRECTABLE unless it has another status (10 R327). -/
def State.rolloutEnd (s : State) (r : Rollout) (status : Nat) : State :=
  let s1 : State := { s with media := { s.media with rollouts := s.media.rollouts.filter fun x => x.uid != r.uid } }
  match s1.kv? r.cache with
  | none => s1.finishUid r.uid status 0 0 0
  | some k =>
    let qs := r.entries.map (·.seq)
    let rd := s1.kvTables k qs qs
    if rd.2 ≠ stOK then rd.1.finishUid r.uid (if status = stOK then min rd.2 stUncorrectable else status) 0 0 0
    else
    let s2 := r.entries.foldl (fun st e =>
      let s3 :=
        if status = stOK then (st.kvSet (k.recAt e.seq + 4) 4 (e.len0 + e.tokens)).kvSet (k.recAt e.seq + 8) 8 (st.kvRolls k e.seq + 1)
        else st.kvTruncate k e.seq e.len0
      s3.kvSet (k.recAt e.seq) 1 1) rd.1
    if status = stOK then s2.finishUid r.uid stOK r.entries.length (s2.kvUsed k) 0
    else s2.finishUid r.uid status 0 0 0

/-! ### The walk (R544 to R547) -/

/-- A KV_WALK entry's body (02 step entry bodies). -/
structure Walk where
  layer : Nat
  head0 : Nat
  heads : Nat
  tile : Nat
  append : Bool
  list : Nat
  stride : Nat
  dst : Nat
  nbuf : Nat
  pair : Nat
  deriving DecidableEq, Repr

/-- Fetch descriptors of one head of a sequence: one for each page (R544). -/
def State.walkFetch (s : State) (k : Kv) (w : Walk) (q h pages : Nat) : Bytes :=
  (List.range pages).flatMap fun n =>
    genDesc 1 0 0 0 k.page (k.frameAt (s.kvFrame k q n) + k.pageOff w.layer h)
      (basAddr w.tile w.pair (w.dst + n % w.nbuf * k.page)) 0 0 0

/-- The two descriptors that append a position (R545): the K row lies at DST_0 of the basin, the V column behind it
(DEDUCED, log entry 15). -/
def State.walkAppend (s : State) (k : Kv) (w : Walk) (q h pos : Nat) : Bytes :=
  let page := k.frameAt (s.kvFrame k q (pos / 256)) + k.pageOff w.layer h
  let src := basAddr w.tile w.pair w.dst
  genDesc 1 0 0 0 (2 * k.dim) src (page + 2 * k.dim * (pos % 256)) 0 0 0 ++
    genDesc 1 1 0 0 2 (src + 2 * k.dim) (page + 512 * k.dim + 2 * (pos % 256)) k.dim 2 512

/-- The walk for one entry of the rollout (R544 to R546). Appending first moves LENGTH on by the entry's positions
(DEDUCED, log entry 15). -/
def State.walkEntry (s : State) (k : Kv) (w : Walk) (i : Nat) (e : RollEntry) : State :=
  let base := w.list + i * w.stride
  let hs := (List.range w.heads).map fun j => w.head0 + j
  if w.append then
    let s1 := s.kvSet (k.recAt e.seq + 4) 4 (e.len0 + e.tokens)
    let l := hs.flatMap fun h => (List.range e.tokens).flatMap fun j => s1.walkAppend k w e.seq h (e.len0 + j)
    s1.kvPut (cisAddr w.tile base) l
  else
    let pages := ceilDiv (s.kvLen k e.seq) 256
    (s.kvPut (cisAddr w.tile base) (hs.flatMap fun h => s.walkFetch k w e.seq h pages)).kvSet (cisAddr w.tile (base - 4)) 4 pages

/-- Whether an entry's lists lie in the cistern. -/
def State.walkFits (s : State) (k : Kv) (w : Walk) (i : Nat) (e : RollEntry) : Bool :=
  let n := if w.append then 2 * e.tokens else ceilDiv (s.kvLen k e.seq) 256
  decide (4 ≤ w.list + i * w.stride ∧ w.list + i * w.stride + 64 * w.heads * n ≤ cisBytes)

/-- The walk of a step entry, for every sequence of the rollout in entry order (02 R64). A page table or record that cannot
be read ends it with UNCORRECTABLE (10 R327). -/
def State.kvWalk (s : State) (r : Rollout) (w : Walk) : State × Nat :=
  match s.kv? r.cache with
  | none => (s, stBadParam)
  | some k =>
    let qs := r.entries.map (·.seq)
    let rd := s.kvTables k qs qs
    if rd.2 ≠ stOK then rd
    else if !(r.entries.zipIdx.all fun e => s.walkFits k w e.2 e.1) || !decide (w.layer < k.layers ∧ w.head0 + w.heads ≤ k.heads) then
      (s, stBadParam)
    else (r.entries.zipIdx.foldl (fun st e => st.walkEntry k w e.2 e.1) rd.1, stOK)

end Sys2Proof.Machine
end

