-- ==== Sys2Proof/Machine/MediaOps.lean ====
section
/-! DEFINITION. What the media engine's commands share (13): a stream's parameters and buffers (R477 to R480), levels
(R475, R481), the weir and the coding of a picture's blocks (R498 to R503), picture records (R484), decoding (R489 to R493),
and the end of a stream (R485 to R488). -/

namespace Sys2Proof.Machine

/-! ### Parameters and buffers -/

/-- A field of a stream's block. -/
def Stream.f (x : Stream) (off n : Nat) : Nat := fld x.cfg off n
/-- Bytes of a sample of a depth. -/
def sampleBytes (depth : Nat) : Nat := if depth = 8 then 1 else 2
/-- Bytes of a buffer under R477, from MAX_W, MAX_H and BUF_PITCH. -/
def bufferBytes (w h pitch : Nat) : Nat := h * pitch + ceilDiv h 2 * pitch + ceilDiv w 16 * ceilDiv h 16 * 16
/-- Smallest BUF_STRIDE of a block. -/
def minStride (b : Bytes) : Nat := ceilDiv (bufferBytes (fld b 4 2) (fld b 6 2) (fld b 12 4)) 4096 * 4096
/-- Address of buffer `i`. -/
def Stream.bufAt (x : Stream) (i : Nat) : Nat := x.f 16 8 + i * x.f 24 8
/-- Bytes of a buffer of a stream. -/
def Stream.bufBytes (x : Stream) : Nat := bufferBytes (x.f 4 2) (x.f 6 2) (x.f 12 4)
/-- No mark. -/
def Marks.clear : Marks := { ref := false, output := false, source := false, work := false, pic := 0 }
/-- Whether a buffer is free (R480). -/
def Marks.free (m : Marks) : Bool := !m.ref && !m.output && !m.source && !m.work
/-- Lowest free buffer. -/
def Stream.freeBuf (x : Stream) : Option Nat := x.marks.findIdx? Marks.free
/-- Changes the marks of a buffer. -/
def Stream.mark (x : Stream) (i : Nat) (f : Marks → Marks) : Stream := { x with marks := modAt x.marks i f }

/-- Stream by handle. -/
def State.stream? (s : State) (h : Nat) : Option Stream := s.media.streams.find? fun x => x.handle == h
/-- Changes a stream. -/
def State.onStream (s : State) (h : Nat) (f : Stream → Stream) : State :=
  { s with media := { s.media with streams := modFirst (fun x => x.handle == h) f s.media.streams } }
/-- Whether a picture of a stream is in a pipe (R473). -/
def State.inPipe (s : State) (h : Nat) : Bool := (s.media.decPipes ++ s.media.encPipes).any fun p => p.2.handle == h

/-- The planes of a picture: luma rows, then chroma rows with Cb and Cr interleaved. Bits 15:10 of a 10-bit sample are zero,
and every chroma sample of a 4:0:0 picture is half the range (R477, R478). -/
def pictureBytes (w h depth chroma : Nat) (planes : Bytes) : Bytes :=
  let sb := sampleBytes depth
  let luma := w * h * sb
  let n := ceilDiv w 2 * ceilDiv h 2 * 2
  let fix := fun (b : Bytes) => if sb = 1 then b else b.zipIdx.map fun v => if v.2 % 2 = 1 then v.1 &&& 3 else v.1
  fix (padTo luma planes) ++
    if chroma = 0 then (List.replicate n (toLE sb (2 ^ (depth - 1)))).flatten else fix (padTo (n * sb) (planes.drop luma))

/-- Writes a picture's planes into a buffer, each row at its pitch; then its motion data (R477). -/
def State.writePlanes (s : State) (x : Stream) (i w h depth : Nat) (planes motion : Bytes) : State :=
  let sb := sampleBytes depth
  let pitch := x.f 12 4
  let row := w * sb
  let crow := ceilDiv w 2 * 2 * sb
  let part := fun off n => (planes.drop off).take n
  let s1 := (List.range h).foldl (fun st r => (st.storeSoon 8 (x.bufAt i + r * pitch) (part (r * row) row))) s
  let cb := x.bufAt i + x.f 6 2 * pitch
  let s2 := (List.range (ceilDiv h 2)).foldl (fun st r => (st.storeSoon 8 (cb + r * pitch) (part (h * row + r * crow) crow))) s1
  let md := cb + ceilDiv (x.f 6 2) 2 * pitch
  (s2.storeSoon 8 md (padTo (ceilDiv (x.f 4 2) 16 * ceilDiv (x.f 6 2) 16 * 16) motion))

/-! ### Levels (R475, R481): the standards' tables (PRESUMED, log entry 26) -/

/-- Largest picture and bit rate in bit/s of a level: HEVC Main tier by general_level_idc ÷ 3, AV1 by seq_level_idx
(PRESUMED, log entry 26). -/
def levelOf (codec level : Nat) : Option (Nat × Nat) :=
  if codec = 2 then
    ([(10, 36864, 128000), (20, 122880, 1500000), (21, 245760, 3000000), (30, 552960, 6000000), (31, 983040, 10000000),
      (40, 2228224, 12000000), (41, 2228224, 20000000), (50, 8912896, 25000000), (51, 8912896, 40000000),
      (52, 8912896, 60000000), (60, 35651584, 60000000), (61, 35651584, 120000000)].find? fun l => l.1 == level).map (·.2)
  else
    ([(0, 147456, 1500000), (1, 278784, 3000000), (4, 665856, 6000000), (5, 1065024, 10000000), (8, 2359296, 12000000),
      (9, 2359296, 20000000), (12, 8912896, 30000000), (13, 8912896, 40000000), (14, 8912896, 60000000),
      (15, 8912896, 60000000), (16, 35651584, 60000000)].find? fun l => l.1 == level).map (·.2)

/-! ### The weir (R501 to R503) -/

/-- Block columns and rows of a block's picture. -/
def blockCols (b : Bytes) : Nat := ceilDiv (fld b 76 2) 64
def blockRows (b : Bytes) : Nat := ceilDiv (fld b 78 2) 64
/-- base of R501. -/
def weirBase (b : Bytes) : Nat := fld b 88 4 * fld b 84 4 / fld b 80 4
/-- AU_MAX (R503). -/
def auMax (b : Bytes) : Nat :=
  let m := max (4 * weirBase b) (fld b 92 4 / 2)
  ceilDiv (m + m / 4 + 64 * (blockCols b * blockRows b)) 8 + 4096
/-- Value held between bounds. -/
def clampInt (v lo hi : Int) : Int := if v < lo then lo else if hi < v then hi else v
/-- floor_div of R501; a divisor of 0 is not stated. -/
def weirDiv (a b : Int) : Int := if b = 0 then Config.weirQuotient a else a.fdiv b

/-- b_pic. -/
def Stream.bPic (x : Stream) (key : Bool) : Int :=
  let base : Int := weirBase x.cfg
  let vbv : Int := x.f 92 4
  let b := clampInt (base + weirDiv (vbv / 2 - x.fill) 8) (base / 4) (4 * base)
  if key then min (4 * b) (vbv / 2) else b
/-- QP steps of AV1 are four times those of HEVC. -/
def Stream.qpUnit (x : Stream) : Int := if x.f 1 1 = 3 then 4 else 1
/-- qp_pic. -/
def Stream.qpPic (x : Stream) : Int :=
  let q : Int := if x.first then x.f 100 1 else x.qpPrev + x.qpUnit * clampInt (weirDiv (6 * (x.bitsPrev - x.bPrev)) x.bPrev) (-3) 3
  clampInt q (x.f 101 1) (x.f 102 1)
/-- b_row of each row. -/
def Stream.rowBudgets (x : Stream) (key : Bool) : List Nat :=
  let last := if key then x.keyRows else x.interRows
  let n := blockCols x.cfg
  let w := (List.range (blockRows x.cfg)).map fun r => if last = [] then n else max (last.getD r 0) (64 * n)
  w.map fun v => (x.bPic key).toNat * v / w.sum

/-- First block column of the intra refresh of picture `p` after a key picture, and its columns (R498). -/
def Stream.refreshCol (x : Stream) (p : Nat) : Nat := p % x.f 98 2 * ceilDiv (blockCols x.cfg) (x.f 98 2)
def Stream.refreshWidth (x : Stream) : Nat := ceilDiv (blockCols x.cfg) (x.f 98 2)
/-- Whether a picture has a refresh column (R498). -/
def Stream.refreshes (x : Stream) (key : Bool) (p : Nat) : Bool :=
  x.f 72 1 == 1 && !key && decide (x.refreshCol p < blockCols x.cfg)
/-- Whether column `k` of picture `p` is coded as intra (R498). -/
def Stream.intraAt (x : Stream) (key : Bool) (p k : Nat) : Bool :=
  key || (x.f 72 1 == 1 && decide (x.refreshCol p ≤ k ∧ k < x.refreshCol p + x.refreshWidth))

/-- A reference buffer without the luma samples from column `lim` on and the chroma samples at their positions. -/
def Stream.refBelow (x : Stream) (ref : Bytes) (lim : Nat) : Bytes :=
  let pitch := x.f 12 4
  let sb := sampleBytes (x.f 3 1)
  let luma := x.f 6 2 * pitch
  let chroma := luma + ceilDiv (x.f 6 2) 2 * pitch
  ref.zipIdx.map fun v =>
    if v.2 < luma then (if v.2 % pitch / sb < lim then v.1 else 0)
    else if v.2 < chroma then (if 2 * ((v.2 - luma) % pitch / (2 * sb)) < lim then v.1 else 0)
    else v.1
/-- What a block of column `k` of picture `p` reads of the reference: nothing when it is intra; left of the refresh column
only the luma samples below 64·c − 16 and the chroma samples at their positions; else all of it (R494, R499). -/
def Stream.refFor (x : Stream) (ref : Bytes) (key : Bool) (p k : Nat) : Bytes :=
  if x.intraAt key p k then []
  else if x.f 72 1 = 1 ∧ k < x.refreshCol p then x.refBelow ref (64 * x.refreshCol p - 16)
  else ref

/-- A row as far as it is coded: its blocks, their bits, and whether every later block is coded in fallback form. -/
structure RowCode where
  blocks : List Config.Block
  spent : Nat
  falling : Bool
  fallback : Nat
  deriving DecidableEq, Repr

/-- Codes the blocks of row `r` in order. A block that would leave less than 64 bits for each block after it within `cap`, and
every later one, is coded in fallback form, in at most 64 bits (R502). -/
def Stream.codeRow (x : Stream) (src ref : Bytes) (key : Bool) (p r : Nat) (qps : List Int) (cap : Nat)
    (before : List Config.Block) : RowCode :=
  let n := blockCols x.cfg
  (List.range n).foldl (fun (a : RowCode) k =>
    let i : Config.BlockIn := { cfg := x.cfg, src := src, ref := x.refFor ref key p k, key := key, intra := x.intraAt key p k, row := r,
                                col := k, qps := qps, before := before ++ a.blocks }
    let b := Config.codeBlock i
    if a.falling || cap < a.spent + b.bits + 64 * (n - 1 - k) then
      let f := Config.fallbackBlock i
      { blocks := a.blocks ++ [f], spent := a.spent + min 64 f.bits, falling := true, fallback := a.fallback + 1 }
    else { a with blocks := a.blocks ++ [b], spent := a.spent + b.bits }) { blocks := [], spent := 0, falling := false, fallback := 0 }

/-- Outcome of the rows of a picture: QP and bits of each row so far, fallback blocks, and the coded blocks. -/
structure RowRun where
  qps : List Int
  bits : List Nat
  fallback : Nat
  blocks : List Config.Block
  deriving DecidableEq, Repr

/-- Codes a picture's rows in order (R501). -/
def Stream.codeRows (x : Stream) (src ref : Bytes) (key : Bool) (p : Nat) : RowRun :=
  let budgets := x.rowBudgets key
  let bPic := x.bPic key
  (List.range (blockRows x.cfg)).foldl (fun (a : RowRun) r =>
    let dev : Int := a.bits.sum - ((budgets.take r).sum : Nat)
    let q := clampInt (x.qpPic + x.qpUnit * clampInt (weirDiv (12 * dev) bPic) (-4) 6) (x.f 101 1) (x.f 102 1)
    let b := budgets.getD r 0
    let qs := a.qps ++ [q]
    let c := x.codeRow src ref key p r qs (b + b / 4) a.blocks
    { qps := qs, bits := a.bits ++ [c.spent], fallback := a.fallback + c.fallback, blocks := a.blocks ++ c.blocks })
    { qps := [], bits := [], fallback := 0, blocks := [] }

/-- An access unit, at most AU_MAX bytes: in low-latency HEVC the first picture of each cycle carries a recovery point SEI
message (R495, R500, R503). -/
def Stream.accessUnit (x : Stream) (key : Bool) (p : Nat) (run : RowRun) : Bytes :=
  let w := x.refreshWidth
  let sei := if x.f 1 1 = 2 ∧ x.f 72 1 = 1 ∧ key = false ∧ p % x.f 98 2 = 0 then
    Config.recoveryPoint (ceilDiv (blockCols x.cfg) w - 1) else []
  (Config.unitHead x.cfg key p ++ sei ++ Config.unitBody x.cfg key p run.qps run.blocks).take (auMax x.cfg)

/-! ### Picture records (R484) -/

/-- A picture record with OWN = 0. -/
def recordBytes (status ptype rflags buf : Nat) (tag : BitVec 64) (w h order off bytes target : Nat) (excess : Int)
    (count qp n latency : Nat) : Bytes :=
  toLE 1 status ++ toLE 1 0 ++ toLE 1 ptype ++ toLE 1 rflags ++ toLE 2 buf ++ toLE 2 0 ++ toLE 8 tag.toNat ++ toLE 2 w ++
    toLE 2 h ++ toLE 4 order ++ toLE 8 off ++ toLE 4 bytes ++ toLE 4 target ++ toLE 4 (BitVec.ofInt 32 excess).toNat ++
    toLE 2 count ++ toLE 1 qp ++ toLE 1 0 ++ toLE 8 n ++ toLE 4 latency ++ toLE 4 0

/-- Address of the slot of record `n`. -/
def Stream.slotAt (x : Stream) (n : Nat) : Nat := x.f 32 8 + 64 * ((n - 1) % 2 ^ x.f 40 1)
/-- Whether the slot of a stream's next record has OWN = 1; the pipeline's own streams have no ring (R472; DESIGN CHOICE, log
entry 27). -/
def State.slotOwn (s : State) (x : Stream) : Bool :=
  x.feeds.isSome || bitOf (s.numAt (x.slotAt (x.records + 1) + 1) 1) 0
/-- A record joins those that wait for their slot; COUNT of a decode stream's record is the pictures discarded since the last
one, at most 65,535 (R490; DESIGN CHOICE, log entry 25). -/
def Stream.addRecord (x : Stream) (r : Nat → Nat → Bytes) : Stream :=
  { x with outq := x.outq ++ [r (min x.skipped 0xFFFF) (x.records + x.outq.length + 1)], skipped := 0 }
/-- A record without a picture's output: BUF and PTYPE none. -/
def Stream.bareRecord (x : Stream) (status rflags buf : Nat) (tag : BitVec 64) (latency : Nat) : Stream :=
  x.addRecord fun count n => recordBytes status 0xFF rflags buf tag 0 0 x.order 0 0 0 0 count 0 n latency

/-- REF as it stands: a decode buffer keeps it while the reference store holds its picture or its record waits (R479). -/
def Stream.remark (x : Stream) : Stream :=
  { x with marks := x.marks.zipIdx.map fun m =>
      { m.1 with ref := m.1.ref && (x.store.contains m.1.pic || x.outq.any fun r => fld r 4 2 == m.2) } }

/-- A record as the input pipeline's decode stage takes it (R472; 14 R515). -/
def Stream.shownOf (x : Stream) (r : Bytes) : Shown :=
  let f := (x.frames[fld r 4 2]?).getD (8, [])
  { status := fld r 0 1, w := fld r 16 2, h := fld r 18 2, depth := f.1, planes := f.2, count := fld r 44 2, last := bitOf (fld r 3 1) 0 }

/-- The oldest waiting record is reported: a decoded picture's buffer gets OUTPUT, unless the stream's close clears it (R479,
R488); the decode stage releases its own at once. -/
def Stream.report (x : Stream) (r : Bytes) (l : List Bytes) : Stream :=
  let y := { x with records := x.records + 1, outq := l }
  if x.encode then y
  else match x.feeds with
    | some _ => { y with shown := y.shown ++ [x.shownOf r] }.remark
    | none => (if x.ending then y else y.mark (fld r 4 2) fun m => { m with output := true }).remark

/-- Writes the records whose slots have OWN = 1, in order; at most `n` of them. -/
def State.writeRecords (s : State) (h : Nat) : Nat → State
  | 0 => s
  | n + 1 =>
    match s.stream? h with
    | none => s
    | some x =>
      match x.outq with
      | [] => s
      | r :: l =>
        if !s.slotOwn x then s
        else
          let s1 := if x.feeds.isSome then s else s.storeSoon 8 (x.slotAt (x.records + 1)) r
          (s1.onStream h fun y => y.report r l).writeRecords h n

/-! ### Decoding (R474, R489 to R493) -/

/-- Whether the decode support table has a sequence header, for a codec (1 H.264, 2 HEVC, 3 AV1) (R474). -/
def decodable (codec : Nat) (h : Config.SeqHeader) : Bool :=
  let mono := decide (h.chroma ≤ 1)
  match codec, h.profile with
  | 1, .h264High => decide (h.level ≤ 52) && h.depth == 8 && mono
  | 2, .hevcMain => h.mainTier && decide (h.level ≤ 61) && h.depth == 8 && h.chroma == 1
  | 2, .hevcMain10 => h.mainTier && decide (h.level ≤ 61) && (h.depth == 8 || h.depth == 10) && h.chroma == 1
  | 3, .av1Main => decide (h.level ≤ 60) && (h.depth == 8 || h.depth == 10) && mono
  | _, _ => false
/-- Random access points of a codec (R490). -/
def randomAccess (codec : Nat) (a : Config.Access) : Bool :=
  match codec, a with
  | 1, .idr | 2, .idr | 2, .cra | 2, .bla | 3, .keyFrame => true
  | _, _ => false
/-- Whether a sequence header is within a stream's limits (R476, R492). -/
def Stream.headerOk (x : Stream) (h : Config.SeqHeader) : Bool :=
  decodable (x.f 1 1) h && decide (h.width ≤ min (x.f 4 2) 8192 ∧ h.height ≤ min (x.f 6 2) 8192 ∧ h.depth ≤ x.f 3 1 ∧ h.store + 1 ≤ x.f 8 2)

/-- What the decoder sees of the chunks read. -/
def Stream.seen (x : Stream) : List (Bytes × Bool) := x.chunks.map fun c => (c.bytes, c.good)
/-- Whether no more data comes for the coded sequence. -/
def Stream.whole (x : Stream) : Bool := (x.st != .opened && x.unread.isEmpty) || (x.unread.head?).any (·.last)
/-- Where decoding begins for the next picture: at it, while the stream discards. -/
def Stream.from_ (x : Stream) : Nat := if x.sync == .run then x.start else x.picked
/-- The next picture of a decode stream. -/
def Stream.next (x : Stream) : Option Config.Picture :=
  if x.chunks.isEmpty then none else Config.nextPicture x.cfg x.seen x.whole x.from_ x.picked
/-- The chunk that holds a picture's first coded byte. -/
def Stream.chunkOf (x : Stream) (p : Config.Picture) : Fed :=
  (x.chunks[p.chunk]?).getD { tag := 0, order := 0, feedUs := 0, bytes := [], good := true }
/-- Whether part of a picture lies in a chunk that could not be read (R508). -/
def Stream.lost (x : Stream) (p : Config.Picture) : Bool := ((x.chunks.take (p.lastChunk + 1)).drop p.chunk).any fun c => !c.good

/-- Whether a picture is decoded, and not discarded or outside the limits (R490 to R492). -/
def Stream.decodes (x : Stream) (p : Config.Picture) : Bool :=
  x.headerOk p.header && (x.sync == .run || randomAccess (x.f 1 1) p.access)
/-- A picture that is not decoded: it is discarded and counted; a sequence header outside the limits gives a LIMIT_EXCEEDED
record, once until the next one within them (R490, R492; DESIGN CHOICE, log entry 25). -/
def Stream.passOver (x : Stream) (now : Nat) (p : Config.Picture) : Stream :=
  let y := { x with picked := x.picked + 1 }
  if x.sync == .overLimit || (x.sync == .seek && !randomAccess (x.f 1 1) p.access) then { y with skipped := x.skipped + 1 }
  else { y with sync := .overLimit }.bareRecord stLimit 0 0xFFFF (x.chunkOf p).tag (now - (x.chunkOf p).feedUs)
/-- Passes over the pictures up to the next one that is decoded, at most `n`. -/
def Stream.passAll (x : Stream) (now : Nat) : Nat → Stream
  | 0 => x
  | n + 1 =>
    match x.next with
    | some p => if x.decodes p then x else (x.passOver now p).passAll now n
    | none => x
/-- A decode stream with no picture in a pipe discards what it does not decode: every picture has a byte. -/
def State.passOver (s : State) (h : Nat) : State :=
  if s.inPipe h then s
  else s.onStream h fun x => if x.encode then x else x.passAll s.clk.nowUs ((x.chunks.map fun c => c.bytes.length + 1).sum)

/-- Reads the chunks up to the next END; a feed whose entries have all taken effect replies (R483). At most `n`. -/
def State.readChunks (s : State) (h : Nat) : Nat → State
  | 0 => s
  | n + 1 =>
    match s.stream? h with
    | none => s
    | some x =>
      match x.unread with
      | [] => s
      | c :: l =>
        if c.last then s
        else
          let r := s.load 8 c.addr c.len
          let fed : Fed := { tag := c.tag, order := c.order, feedUs := c.feedUs, bytes := r.2.getD [], good := r.2.isSome }
          let s1 := r.1.onStream h fun y => { y with unread := l, chunks := y.chunks ++ [fed] }
          let s2 := if l.any fun k => k.uid == c.uid then s1 else s1.finishUid c.uid stOK 0 0 0
          s2.readChunks h n

/-- Reports a decoded picture: its record (R489). -/
def Stream.output (x : Stream) (now pic : Nat) : Stream :=
  match x.held.find? fun e => e.1 == pic, x.marks.findIdx? fun m => m.pic == pic && m.ref with
  | some (_, tag, pt, w, h, us), some i =>
    { x.addRecord (fun count n => recordBytes 0 pt 0 i tag w h x.order 0 0 0 0 count 0 n (now - us)) with
      order := x.order + 1, held := x.held.filter (fun e => e.1 != pic) }
  | _, _ => x

/-- An END of a decode stream: the pictures still held are output, then the END_OF_STREAM record; a new coded sequence
begins after it at its first random access point (R490, R493). -/
def Stream.endSequence (x : Stream) (now : Nat) : Stream :=
  let l := if x.chunks.isEmpty then [] else Config.lastPictures x.cfg x.seen x.start x.picked
  let y := (l.foldl (fun z p => z.output now p) x).bareRecord stOK 1 0xFFFF 0 0
  { y with chunks := [], picked := 0, held := [], sync := .seek, start := 0, store := [] }.remark

/-- Ends the coded sequence of a decode stream whose END is next, once every picture before it is decoded (R483, R493). -/
def State.endIfDone (s : State) (h : Nat) : State :=
  match s.stream? h with
  | none => s
  | some x =>
    match x.unread with
    | c :: l =>
      if c.last && !x.encode && !s.inPipe h && x.next.isNone then
        let s1 := s.onStream h fun y => { y.endSequence s.clk.nowUs with unread := l }
        if x.feeds.isSome || l.any fun k => k.uid == c.uid then s1 else s1.finishUid c.uid stOK 0 0 0
      else s
    | [] => s

/-! ### Encoding (R494 to R500) -/

/-- Where an access unit of at most AU_MAX bytes goes, when that much of the ring is free (R484, R497). -/
def Stream.place (x : Stream) : Option Nat :=
  let n := auMax x.cfg
  let off := if x.bsOff + n ≤ x.f 56 8 then x.bsOff else 0
  if x.units.any fun u => overlaps off n u.1 (u.2 - u.1) then none else some off
/-- A unit placed at an offset. -/
def Stream.placed (x : Stream) (off n : Nat) : Stream :=
  { x with bsOff := ceilDiv (off + n) 64 * 64, units := x.units ++ [(off, off + n)] }

/-- An END of an encode stream at the front of its queue (R497); the feed that holds it replies (R483). -/
def State.endUnit (s : State) (h : Nat) : State :=
  match s.stream? h with
  | none => s
  | some x =>
    match x.queue with
    | q :: l =>
      let ends := fun (st : State) => match q.uid with
        | some u => if l.any fun k => k.uid == q.uid then st else st.finishUid u stOK 0 0 0
        | none => st
      if !q.last || s.inPipe h then s
      else if x.f 1 1 = 3 then ends (s.onStream h fun y => { y.bareRecord stOK 1 0xFFFF 0 0 with queue := l })
      else match x.place with
        | none => s
        | some off =>
          let b := (Config.endUnit 2).take (auMax x.cfg)
          let s1 := s.storeSoon 8 (x.f 48 8 + off) b
          ends (s1.onStream h fun y =>
            { (y.placed off b.length).addRecord (fun count n => recordBytes 0 0xFF 1 0xFFFF 0 0 0 y.order off b.length 0 0 count 0 n 0)
              with queue := l })
    | [] => s

/-! ### The end of a stream (R485 to R488) -/

/-- Ends a stream that has coded what it will code: HELD while OUTPUT marks remain, else it is gone; STREAM_CLOSE
replies. -/
def State.closeIfDone (s : State) (h : Nat) : State :=
  match s.stream? h with
  | none => s
  | some x =>
    let gone : State := { s with media := { s.media with streams := s.media.streams.filter fun y => y.handle != h } }
    let out := !x.ending && x.marks.any (·.output)
    let idle := !s.inPipe h && x.queue.isEmpty && x.unread.isEmpty && x.outq.isEmpty && (x.encode || x.st == .closing || x.next.isNone)
    if x.st == .opened || x.st == .held || !idle then
      if x.st == .held && !out then gone else s
    else
      let s1 := if out then
          s.onStream h fun y => { y with st := .held, marks := y.marks.map fun m => { m with ref := false, source := false, work := false } }
        else gone
      (s1.finishWait (.streamClose h 0) stOK 0 0 0).finishWait (.streamClose h 1) stOK 0 0 0

/-- Stops a stream under the stop rule: queued sources and unread chunks end ABORTED (R485 MODE 1). -/
def State.stopStream (s : State) (h : Nat) : State :=
  match s.stream? h with
  | none => s
  | some x =>
    let s1 := s.finishWait (.streamClose h 0) stAborted 0 0 0
    let uids := if x.feeds.isSome then [] else x.unread.map (·.uid) ++ x.queue.filterMap (·.uid)
    let s2 := uids.eraseDups.foldl (fun st u => st.finishUid u stAborted 0 0 0) s1
    s2.onStream h fun y =>
      let z := (y.queue.filter fun q => !q.last).foldl (fun a q =>
        (a.mark q.buf fun m => { m with source := false }).bareRecord stAborted 0 q.buf q.tag (s.clk.nowUs - q.feedUs)) y
      { z with queue := [], unread := [], st := .closing }

/-! ### What goes on by itself -/

/-- A pipeline changed. -/
def State.onPipe (s : State) (t : Nat) (f : Pipeline → Pipeline) : State :=
  { s with media := { s.media with pipelines := modFirst (fun p => p.tenant == t) f s.media.pipelines } }
/-- A stopping pipeline is STOPPED once the streams that it opened are closed; PIPE_STOP replies (14 R526). -/
def State.pipeSettled (s : State) (p : Pipeline) : State :=
  if p.st == .stopping && s.media.streams.all fun x => x.tenant != p.tenant || x.feeds.isNone then
    (s.onPipe p.tenant fun x => { x with st := .stopped }).finishWait (.pipeStop p.tenant) stOK 0 0 0
  else s

/-- What the media engine does once it can: discards, records, ENDs and closes of every stream, and the pipelines that wait
for theirs. -/
def State.mediaOn (s : State) : State :=
  let s1 := s.media.streams.foldl (fun st x =>
    let h := x.handle
    (((((st.passOver h).endIfDone h).endUnit h).writeRecords h 64).closeIfDone h)) s
  s1.media.pipelines.foldl State.pipeSettled s1

/-- Closes streams as MODE 1 with their OUTPUT marks cleared: for the release of a tenant, or a BLOCK_RESET of the engine
(R488). -/
def State.endStreams (s : State) (q : Stream → Bool) : State :=
  ((s.media.streams.filter q).foldl (fun st y =>
    (if y.st == .closing || y.st == .held then st else st.stopStream y.handle).onStream y.handle
      fun z => { z with ending := true, marks := z.marks.map fun m => { m with output := false } }) s).mediaOn

/-- Stops the streams that a tenant's pipeline has opened, all or that of one sample (14 R515, R526). -/
def State.endFeeds (s : State) (t : Nat) (q : Nat × Nat → Bool) : State :=
  (s.media.streams.filter fun x => x.tenant == t && x.feeds.any q).foldl (fun st x => (st.stopStream x.handle).closeIfDone x.handle) s

end Sys2Proof.Machine
end

