-- ==== Sys2Proof/Machine/PlanOps.lean ====
section
/-! DEFINITION. Plan images and kernel images: their tables (02 R61, 07 kernel image header), the checks of R63 and of
step 2 of R257, relocation (R62), and the launch of a kernel (07 R258). -/

namespace Sys2Proof.Machine

/-- A read by a command: NO_RESOURCE where a memory group is off, UNCORRECTABLE where a line cannot be read; it waits
while a group is being initialised (10 R327, R338, R339). -/
def State.cmdRead (s : State) (a n : Nat) : State × Nat :=
  if hbmAny s.groupOff a n then (s, stNoResource)
  else if hbmAny s.groupInit a n then (s, stWait)
  else
    let r := s.load 5 a n
    (r.1, if r.2.isSome then stOK else stUncorrectable)

/-- The indices, ascending, of the set bits of an 8-bit mask. -/
def tileList (mask : Nat) : List Nat := maskList 8 mask

/-! ### Kernel images (07) -/

/-- Header, entries, tokens and footprint of the kernel image at `a`. -/
def State.kTiles (s : State) (a : Nat) : Nat := s.numAt (a + 12) 1
def State.kPairs (s : State) (a : Nat) : Nat := s.numAt (a + 14) 2
def State.kEntry (s : State) (a i : Nat) : Nat := a + s.numAt (a + 16) 4 + 16 * i
def State.kEntries (s : State) (a : Nat) : Nat := s.numAt (a + 20) 2
def State.kTokens (s : State) (a : Nat) : Nat := s.numAt (a + 22) 2
def State.kToken (s : State) (a i : Nat) : Nat := a + s.numAt (a + 24) 4 + 4 * i
def State.kArgs (s : State) (a : Nat) : Nat := s.numAt (a + 28) 4
def State.kArgsAt (s : State) (a : Nat) : Nat := s.numAt (a + 32) 4
def State.kFoot (s : State) (a i : Nat) : Nat × Nat :=
  let e := a + s.numAt (a + 36) 4 + 16 * i
  (s.numAt e 8, s.numAt (e + 8) 8)
def State.kFeet (s : State) (a : Nat) : Nat := s.numAt (a + 40) 2
/-- Footprint ranges of a kernel image. -/
def State.kFootprint (s : State) (a : Nat) : List (Nat × Nat) := (List.range (s.kFeet a)).map (s.kFoot a)

/-- Whether an entry table entry is in order. -/
def State.kEntryOk (s : State) (a len i : Nat) : Bool :=
  let e := s.kEntry a i
  let b := s.numAt (e + 4) 4
  let o := s.numAt (e + 8) 8
  decide (s.numAt e 1 < s.kTiles a) && decide (s.numAt (e + 1) 1 < 16) && bitOf (s.kPairs a) (s.numAt (e + 1) 1) &&
    s.numAt (e + 2) 2 == 0 && decide (1 ≤ b ∧ b ≤ 2048) && o % 32 == 0 && decide (o + 32 * b ≤ len)

/-- Step 2 of R257 for the image of `len` bytes at `a`, but for the TILE_MASK. -/
def State.kImageOk (s : State) (a len : Nat) : Bool :=
  let n := s.kEntries a
  let entries := List.range n
  decide (256 ≤ len) && s.numAt a 4 == 0x4B4E4C31 && s.numAt (a + 4) 2 == 1 && s.numAt (a + 6) 2 == 256 &&
    s.numAt (a + 8) 4 == len && decide (1 ≤ s.kTiles a ∧ s.kTiles a ≤ 8) && s.numAt (a + 13) 1 == 0 &&
    n == s.kTiles a * popCount 16 (s.kPairs a) && decide (s.kTokens a ≤ 256) && s.kArgs a % 64 == 0 &&
    s.kArgsAt a % 64 == 0 && s.numAt (a + 36) 4 % 16 == 0 && decide (s.kFeet a ≤ 4096) &&
    (s.bytesAt (a + 42) 214).all (· == 0) && decide (s.kEntry a n ≤ a + len) &&
    decide (s.kToken a (s.kTokens a) ≤ a + len) && decide (s.numAt (a + 36) 4 + 16 * s.kFeet a ≤ len) &&
    entries.all (s.kEntryOk a len) &&
    decide ((entries.map fun i => (s.numAt (s.kEntry a i) 1, s.numAt (s.kEntry a i + 1) 1)).Nodup) &&
    (List.range (s.kTokens a)).all (fun i =>
      let o := s.numAt (s.kToken a i + 2) 1
      decide (o < 16) && bitOf (s.kPairs a) o && s.numAt (s.kToken a i + 3) 1 == 0) &&
    (s.kFootprint a).all (fun r => r.1 % 4096 == 0 && r.2 % 4096 == 0 && r.2 != 0) &&
    decide (s.kArgsAt a + s.kArgs a ≤ cisBytes)

/-- A bundle of a program. -/
def State.bundleAt (s : State) (a : Nat) : Bundle :=
  let w := fun o => BitVec.ofNat 64 (s.numAt (a + o) 8)
  { ctl := w 0, mat := w 8, vec := w 16, mov := w 24 }

/-- An issue path at launch (07 R236, R258). -/
def launchPath (prog : List Bundle) (lt p t : Nat) : Path :=
  { Path.reset with active := true, prog := prog,
                    creg := List.replicate 13 0 ++ [BitVec.ofNat 32 lt, BitVec.ofNat 32 p, BitVec.ofNat 32 t] }

/-- Loads one tile of a kernel: argument block, tokens, programs, FLAGS (07 R258). -/
def State.launchTile (s : State) (k : Kernel) (img args lt t : Nat) : State :=
  let s1 := (s.store 5 (cisAddr t (s.kArgsAt img)) (s.bytesAt args (s.kArgs img))).1
  let mine := (List.range (s.kEntries img)).filter fun i => s.numAt (s.kEntry img i) 1 == lt
  let paths := mine.map fun i =>
    let e := s.kEntry img i
    let o := s.numAt (e + 8) 8
    (s.numAt (e + 1) 1, (List.range (s.numAt (e + 4) 4)).map fun j => s.bundleAt (img + o + 32 * j))
  let toks := List.range (s.kTokens img)
  s1.onTile t fun x =>
    { x with
      kernel := some k.kid
      tok := sput 0 [] 0 (toks.map fun i => s.numAt (s.kToken img i) 2)
      tokOwner := toks.map fun i => s.numAt (s.kToken img i + 2) 1
      paths := x.paths.zipIdx.map fun q => match paths.find? fun e => e.1 == q.2 with
        | some e => launchPath e.2 lt q.2 t
        | none => q.1.idle
      engines := x.engines.zipIdx.map fun e => if bitOf k.pairMask.toNat e.2 then { e.1 with flags := 0 } else e.1 }

/-- Launches a kernel that has passed its checks (07 R258). -/
def State.launch (s : State) (k : Kernel) (img args : Nat) : State :=
  k.tiles.zipIdx.foldl (fun st x => st.launchTile k img args x.2 x.1)
    { s with work := { s.work with kernels := s.work.kernels ++ [k] } }

/-- Whether a core that a list of tiles and a pair mask names is fenced, or its tile is (05 R196; 03 R107). -/
def State.anyFenced (s : State) (l : List (Nat × Nat)) : Bool :=
  l.any fun x => s.tileFenced x.1 || !s.tileOn x.1 ||
    (s.tiles[x.1]?).any fun t => t.cores.zipIdx.any fun c => c.1.fenced && bitOf x.2 c.2
/-- Whether a range of HBM overlaps a retired frame (10 R335). -/
def State.retiredIn (s : State) (a n : Nat) : Bool :=
  s.tiles.zipIdx.any fun x => x.1.mg.retired.any fun f => overlaps (x.2 * groupBytes + f * 0x200000) 0x200000 a n

/-! ### Plan images (02 R61) -/

/-- A section's image offset, entries and length. -/
structure Sec where
  off : Nat
  count : Nat
  len : Nat
  deriving DecidableEq, Repr

/-- The directory of the plan image at `a`: type and section. -/
def State.planDir (s : State) (a : Nat) : List (Nat × Sec) :=
  let d := a + s.numAt (a + 24) 8
  (List.range (s.numAt (a + 16) 2)).map fun i =>
    let e := d + 32 * i
    (s.numAt e 2, { off := s.numAt (e + 8) 8, count := s.numAt (e + 4) 4, len := s.numAt (e + 16) 8 })
/-- Section of a type, of none present an empty one. -/
def State.sec (s : State) (a ty : Nat) : Sec :=
  ((s.planDir a).find? fun e => e.1 == ty).elim { off := 0, count := 0, len := 0 } (·.2)
/-- Address of entry `i`, of `size` bytes, of a section. -/
def State.secAt (s : State) (a ty size i : Nat) : Nat := a + (s.sec a ty).off + size * i
/-- Tiles the plan needs. -/
def State.planTiles (s : State) (a : Nat) : Nat := s.numAt (a + 7) 1
/-- KIND of a plan. -/
def State.planKind (s : State) (a : Nat) : Nat := s.numAt (a + 6) 1
/-- Step entries of a plan. -/
def State.steps (s : State) (a : Nat) : Nat := (s.sec a 3).count
/-- Address of step entry `i`. -/
def State.stepAt (s : State) (a i : Nat) : Nat := s.secAt a 3 64 i
/-- Image address of kernel `i`. -/
def State.planKernel (s : State) (a i : Nat) : Nat := a + (s.sec a 2).off + s.numAt (s.secAt a 2 8 i) 8
/-- Footprint ranges of a plan. -/
def State.planFootprint (s : State) (a : Nat) : List (Nat × Nat) :=
  (List.range (s.sec a 5).count).map fun i => (s.numAt (s.secAt a 5 16 i) 8, s.numAt (s.secAt a 5 16 i + 8) 8)
/-- Window entries: base, length, rights. -/
def State.planWindows (s : State) (a : Nat) : List (Nat × Nat × Nat) :=
  (List.range (s.sec a 4).count).map fun i =>
    let e := s.secAt a 4 32 i
    (s.numAt e 8, s.numAt (e + 8) 8, s.numAt (e + 16) 1)
/-- CORE_MASK of logical tile `i`. -/
def State.coreMask (s : State) (a i : Nat) : Nat := s.numAt (s.secAt a 1 64 0 + 2 * i) 2
/-- USES of the resource record. -/
def State.planUses (s : State) (a : Nat) : Nat := s.numAt (s.secAt a 1 64 0 + 16) 1
/-- A field of the state declaration. -/
def State.decl (s : State) (a off n : Nat) : Nat := s.numAt (s.secAt a 6 128 0 + off) n
/-- Image size I of a training plan (16 R556). -/
def State.imageBytes (s : State) (a : Nat) : Nat := s.decl a 16 8 + 4096 + s.decl a 24 8
/-- LAYOUT of a plan's state and commit records (02 R61), over the declaration as R62 has rewritten it (DESIGN CHOICE, log
entry 119). -/
def State.planLayout (s : State) (a : Nat) : Bytes :=
  shake256 (s.bytesAt (s.secAt a 6 128 0) 32 ++ s.bytesAt (s.secAt a 6 128 0 + 56) 32) 32

/-- Whether a tile-relative range names a tile of the plan and ends in its memory group (R62, R63). -/
def relOk (tc a n : Nat) : Bool :=
  decide (a < 2 ^ 41) && decide (a / groupBytes < tc) && decide (a % groupBytes + n ≤ groupBytes)
/-- Whether a range lies in one of the footprint ranges. -/
def inFeet (l : List (Nat × Nat)) (a n : Nat) : Bool := l.any fun r => inside a n r.1 r.2

/-- Sections: in the image, apart from each other, each type once, those required present (R63). -/
def State.dirOk (s : State) (a len : Nat) : Bool :=
  let n := s.numAt (a + 16) 2
  let d := s.numAt (a + 24) 8
  let l := s.planDir a
  let has := fun ty => l.any fun e => e.1 == ty
  let spans := l.map fun e => (e.2.off, e.2.len)
  decide (4 ≤ n ∧ n ≤ 16) && d % 32 == 0 && decide (d + 32 * n ≤ len) &&
    (List.range n).all (fun i => s.numAt (a + d + 32 * i + 2) 2 == 0 && s.numAt (a + d + 32 * i + 24) 8 == 0) &&
    l.all (fun e => decide (1 ≤ e.1 ∧ e.1 ≤ 7) && e.2.off % 64 == 0 && decide (e.2.off + e.2.len ≤ len)) &&
    decide ((l.map (·.1)).Nodup) && [1, 2, 3, 5].all has && has 6 == (s.planKind a == 1) &&
    spans.zipIdx.all (fun x => spans.zipIdx.all fun y => x.2 == y.2 || !overlaps x.1.1 x.1.2 y.1.1 y.1.2)

/-- Counts and lengths of the sections of fixed entries (R61). -/
def State.countsOk (s : State) (a : Nat) : Bool :=
  (s.planDir a).all fun e =>
    let c := e.2.count
    let fits := fun size => decide (size * c ≤ e.2.len)
    match e.1 with
    | 1 => c == 1 && fits 64
    | 2 => decide (1 ≤ c ∧ c ≤ 4096) && fits 8
    | 3 => decide (1 ≤ c ∧ c ≤ 65536) && fits 64
    | 4 => decide (c ≤ 64) && fits 32
    | 5 => decide (1 ≤ c ∧ c ≤ 65536) && fits 16
    | 6 => c == 1 && fits 128
    | _ => fits 8

/-- The resource record (R61, R63). -/
def State.resourceOk (s : State) (a tc : Nat) : Bool :=
  let r := s.secAt a 1 64 0
  (List.range 8).all (fun i => decide (i < tc) || s.coreMask a i == 0) && decide (s.planUses a < 4) &&
    s.numAt (r + 17) 3 == 0 && (s.bytesAt (r + 24) 40).all (· == 0) && (s.planKind a == 2 || s.numAt (r + 20) 4 == 0)

/-- Windows, footprint and state declaration (R61, R63) (DEDUCED, log entry 39). -/
def State.rangesOk (s : State) (a tc : Nat) : Bool :=
  let feet := s.planFootprint a
  let dcl := s.secAt a 6 128 0
  (List.range (s.sec a 4).count).all (fun i => (s.bytesAt (s.secAt a 4 32 i + 17) 15).all (· == 0)) &&
    (s.planWindows a).all (fun w => relOk tc w.1 w.2.1 && w.2.1 % 64 == 0 && decide (w.2.2 < 8) && inFeet feet w.1 w.2.1) &&
    feet.all (fun r => relOk tc r.1 r.2 && r.1 % 4096 == 0 && r.2 % 4096 == 0 && r.2 != 0) &&
    (s.planKind a != 1 ||
      ([0, 8].all (fun o => relOk tc (s.decl a o 8) (s.imageBytes a) && s.decl a o 8 % 4096 == 0 &&
          inFeet feet (s.decl a o 8) (s.imageBytes a)) &&
        s.decl a 24 8 % 16 == 0 && s.decl a 32 8 % 4096 == 0 && relOk tc (s.decl a 32 8) (s.decl a 40 8) &&
        inFeet feet (s.decl a 32 8) (s.decl a 40 8) && (s.decl a 48 1 == 0 || decide (2 ≤ s.decl a 48 1 ∧ s.decl a 48 1 ≤ 16)) &&
        decide (s.decl a 49 1 < 2) && s.decl a 50 6 == 0 && (s.bytesAt (dcl + 88) 40).all (· == 0)))

/-- The kernels of a plan, each inside its section (R61, R63). -/
def State.kernelsOk (s : State) (a : Nat) : Bool :=
  let k := s.sec a 2
  (List.range k.count).all fun i =>
    let o := s.numAt (s.secAt a 2 8 i) 8
    let len := s.numAt (a + k.off + o + 8) 4
    o % 256 == 0 && decide (o + 256 ≤ k.len) && decide (o + len ≤ k.len) && s.kImageOk (a + k.off + o) len

/-- Bytes at SRC, DST and AUX that a COLLECTIVE of a plan reads or writes for certain, whatever the number of ranks
(12 operations; R63). -/
def collSpans (op sfmt dfmt count arg : Nat) : Nat × Nat × Nat :=
  let len := fun code n => match fmtOf code with
    | some f => ceilDiv (n * f.width) 8
    | none => 0
  match op with
  | 1 => (len sfmt count, 0, 0)
  | 2 => (0, len dfmt count, 0)
  | 5 => (0, 0, 32 * count)
  | 7 => (len sfmt count, len sfmt arg, 8)
  | 8 => (64 * count, 64 * count, 0)
  | 9 => (8 * count, 8 * count, 0)
  | _ => (len sfmt count, len dfmt count, 0)

/-- The body of a step entry (R61, R63). -/
def State.bodyOk (s : State) (a tc e : Nat) : Bool :=
  let n := fun o k => s.numAt (e + o) k
  match n 0 1 with
  | 1 =>
    let img := s.planKernel a (n 16 2)
    decide (n 16 2 < (s.sec a 2).count) && n 18 2 == 0 && decide (n 20 1 < 2 ^ tc) && n 21 3 == 0 && n 36 8 == 0 &&
      n 44 8 == 0 && n 52 8 == 0 && n 60 4 == 0 && popCount 8 (n 20 1) == s.kTiles img &&
      relOk tc (n 24 8) (s.kArgs img) && (s.kArgs img == 0 || inFeet (s.planFootprint a) (n 24 8) (s.kArgs img))
  | 2 =>
    let op := n 18 1
    let len := collSpans op (n 20 1) (n 21 1) (n 40 8) (n 56 4)
    n 22 2 == 0 && n 60 4 == 0 && decide (n 16 2 < 4096) && (op == 4 || op == 6 || op == 7 || n 56 4 == 0) &&
      relOk tc (n 24 8) len.1 && relOk tc (n 32 8) len.2.1 && relOk tc (n 48 8) len.2.2
  | 3 =>
    s.planKind a != 1 && n 1 1 != 2 && decide (n 20 1 < tc) && decide (n 21 1 < 2) && n 22 2 == 0 &&
      decide (1 ≤ n 36 1 ∧ n 36 1 ≤ 64) && decide (n 37 1 < 16) && n 38 8 == 0 && n 46 8 == 0 && n 54 8 == 0 && n 62 2 == 0
  | 0x7F => (s.bytesAt (e + 16) 48).all (· == 0)
  | _ => false

/-- The step program (R61, R63). -/
def State.programOk (s : State) (a tc : Nat) : Bool :=
  let n := s.steps a
  (List.range n).all fun i =>
    let e := s.stepAt a i
    let nw := s.numAt (e + 2) 1
    decide (s.numAt (e + 1) 1 ≤ 5) && decide (nw ≤ 4) && s.numAt (e + 3) 1 == 0 && s.numAt (e + 12) 4 == 0 &&
      (List.range 4).all (fun k => let w := s.numAt (e + 4 + 2 * k) 2; if k < nw then decide (w < i) else w == 0) &&
      (i == 0 || decide (s.numAt (s.stepAt a (i - 1) + 1) 1 ≤ s.numAt (e + 1) 1)) &&
      ((s.numAt e 1 == 0x7F) == (i + 1 == n)) && s.bodyOk a tc e

/-- Image offsets of every field that relocation rewrites (R62); one that is listed twice, once (DESIGN CHOICE, log entry
119). -/
def State.relocs (s : State) (a : Nat) : List Nat :=
  let secOffs := fun ty size o => (List.range (s.sec a ty).count).map fun i => (s.sec a ty).off + size * i + o
  let ops := (List.range (s.steps a)).flatMap fun i =>
    let o := (s.sec a 3).off + 64 * i
    match s.numAt (a + o) 1 with
    | 1 => [o + 24]
    | 2 => [o + 24, o + 32, o + 48]
    | _ => []
  (secOffs 4 32 0 ++ secOffs 5 16 0 ++ secOffs 6 128 0 ++ secOffs 6 128 8 ++ secOffs 6 128 32 ++ ops ++
    (List.range (s.sec a 7).count).map fun i => s.numAt (s.secAt a 7 8 i) 8).eraseDups

/-- R63 for the plan image of `len` bytes at `a` (DEDUCED, log entry 39). -/
def State.planOk (s : State) (a len : Nat) : Bool :=
  let tc := s.planTiles a
  decide (256 ≤ len) && s.numAt a 4 == 0x504C4E31 && s.numAt (a + 4) 2 == 1 &&
    (s.planKind a == 1 || s.planKind a == 2) && decide (1 ≤ tc ∧ tc ≤ 8) && s.numAt (a + 8) 8 == len &&
    s.numAt (a + 18) 6 == 0 && (s.bytesAt (a + 32) 224).all (· == 0) && s.dirOk a len && s.countsOk a &&
    s.resourceOk a tc && s.rangesOk a tc && s.kernelsOk a && s.programOk a tc &&
    (List.range (s.sec a 7).count).all (fun i =>
      let o := s.numAt (s.secAt a 7 8 i) 8
      decide (o + 8 ≤ len) && relOk tc (s.numAt (a + o) 8) 0)

/-- A tile-relative address as a local address (R62). -/
def relocated (tiles : List Nat) (v : Nat) : Nat := tiles.getD (v / groupBytes % 8) 0 * groupBytes + v % groupBytes

/-- Rewrites a plan image in place (R62). -/
def State.relocate (s : State) (a : Nat) (tiles : List Nat) : State :=
  (s.relocs a).foldl (fun st o => (st.store 5 (a + o) (toLE 8 (relocated tiles (s.numAt (a + o) 8)))).1) s

end Sys2Proof.Machine
end

