-- ==== Sys2Proof/Machine/JobOps.lean ====
section
/-! DEFINITION. What jobs share: the job's plan and state layout, groups and their announcements (12 R423, R425), the
close of a step over the tree of the step group (12 R468, R469), the state record and parity (16 R557 to R564), risk
and the checkpoint trigger (16 R573 to R575), pause, stop and failure (02 R67 to R70; 16 R576, R577), and the release
of a tenant (02 R56, R58, R71). -/

namespace Sys2Proof.Machine

/-! ### Jobs and their plans -/

/-- Whether a job still runs or can run. -/
def Job.live (j : Job) : Bool := j.st != .stopped && j.st != .failed
/-- Plan of a job. -/
def State.planOf (s : State) (j : Job) : Option Plan := (s.tenant? j.tenant).bind fun t => t.plans.find? fun p => p.handle == j.plan
/-- Image address of a job's plan. -/
def State.imgOf (s : State) (j : Job) : Nat := ((s.planOf j).map (·.addr)).getD 0
/-- Physical tiles of a job's plan. -/
def State.tilesOfJob (s : State) (j : Job) : List Nat := ((s.planOf j).map (·.tiles)).getD []
/-- Whether a job trains. -/
def State.trains (s : State) (j : Job) : Bool := s.planKind (s.imgOf j) == 1
/-- Whether a tile runs a live job. -/
def State.tileJob (s : State) (t : Nat) : Bool := s.work.jobs.any fun j => j.live && (s.tilesOfJob j).contains t
/-- Segment size Z for guard size `k` (16 R560). -/
def State.segBytes (s : State) (j : Job) (k : Nat) : Nat := ceilDiv (s.imageBytes (s.imgOf j)) (4096 * k) * 4096
/-- Whether guard size `k` is in order for a job (16 R559) (DEDUCED, log entry 39). -/
def State.guardOk (s : State) (j : Job) (k : Nat) : Bool :=
  k == 0 || (j.members.length % k == 0 && decide (2 ≤ j.members.length / k) &&
    decide (4 * s.segBytes j k ≤ s.decl (s.imgOf j) 40 8))
/-- Address of state buffer `b` of a job. -/
def State.bufAt (s : State) (j : Job) (b : Nat) : Nat := s.decl (s.imgOf j) (8 * b) 8
/-- Address of the state record that follows buffer `b`. -/
def State.recordAt (s : State) (j : Job) (b : Nat) : Nat := s.bufAt j b + s.decl (s.imgOf j) 16 8
/-- Address of generation `g` of the guard region (16 R561). -/
def State.genAt (s : State) (j : Job) (g : Nat) : Nat := s.decl (s.imgOf j) 32 8 + 2 * s.segBytes j j.guardK * g
/-- RESULT0 of a command that reports the last closed step; while none has closed it is open (DESIGN CHOICE, log entry 14). -/
def State.lastClosedVal (s : State) (j : Job) : State × Nat :=
  match j.lastClosed with
  | some k => (s, k % 2 ^ 32)
  | none => let d := s.draw; (d.2, (Config.freeWord d.1).toNat % 2 ^ 32)
/-- Ends the commands that wait for `w` with the job's last closed step. -/
def State.replyClosed (s : State) (j : Job) (w : Wait) (status : Nat) : State :=
  if s.host.running.all fun c => c.wait != w then s
  else let v := s.lastClosedVal j; v.1.finishWait w status v.2 0 0
/-- Lowest number from 1 on that no member of a list has (DESIGN CHOICE, log entry 35). -/
def lowestFree (l : List Nat) : Nat := ((List.range (l.length + 1)).map (· + 1)).find? (fun n => !l.contains n) |>.getD 1
/-- Sends a control packet of a job to every other member. -/
def State.tellJob (s : State) (j : Job) (ty a : Nat) (payload : Bytes) : State :=
  s.sendOthers j.members fun m => ctlPkt ty m j.jobId a payload
/-- JOB_CONTROL to every other member (11 R379). -/
def State.control (s : State) (j : Job) (action arg target : Nat) : State :=
  s.tellJob j 0x20 (action + 256 * arg) (toLE 8 target)
/-- TARGET_STEP where an action takes effect at once. -/
abbrev atOnce : Nat := 2 ^ 64 - 1
/-- Step whose close follows the open one by one (02 R68); between steps the next step counts as open (DEDUCED, log entry 16). -/
def Job.pauseStep (j : Job) : Nat :=
  match j.openStep with
  | some k => k + 1
  | none => (j.lastClosed.map (· + 2)).getD 1
/-- Number of the next step. -/
def Job.nextStep (j : Job) : Nat := (j.lastClosed.map (· + 1)).getD 0

/-! ### Pipelines of a job (14 R526) -/

/-- A field of a pipeline's configuration. -/
def Pipeline.f (p : Pipeline) (off n : Nat) : Nat := fld p.cfg off n
/-- Address of the buffer of batch `n`. -/
def Pipeline.bufAt (p : Pipeline) (n : Nat) : Nat := p.f 32 8 + n % (p.f 2 1 + 1) * p.f 40 8
/-- Stops a running pipeline: batches that are not complete return to STATE 0, complete ones stay; it is stopping until no
picture of its streams is in a pipe (R526). -/
def State.pipeHalt (s : State) (p : Pipeline) : State :=
  if p.st != .running then s
  else
    let s1 := (p.buffers.filter fun b => b.st != 2).foldl (fun st b => (st.storeSoon 7 (p.bufAt b.n) (toLE 1 0))) s
    let s2 := (s1.onPipe p.tenant fun x => { x with st := .stopping, samples := [], buffers := x.buffers.filter fun b => b.st == 2 }).endFeeds
      p.tenant fun _ => true
    (s2.media.pipelines.filter fun x => x.tenant == p.tenant).foldl State.pipeSettled s2
/-- Stops the pipelines that take their seed from a job. -/
def State.pipeHaltJob (s : State) (h : Nat) : State :=
  (s.media.pipelines.filter fun p => p.f 0 2 == h && p.st != .unconfigured).foldl State.pipeHalt s

/-! ### Groups (12 R421 to R425) -/

/-- The group digest, its first 16 bytes. -/
def groupDigest (gid vc shape : Nat) (jobId : BitVec 64) (members : List Nat) (more : Bytes) : Bytes :=
  shake256 (toLE 2 gid ++ toLE 1 vc ++ toLE 1 shape ++ toLE 4 members.length ++ toLE 8 jobId.toNat ++
    members.flatMap (toLE 2) ++ more) 16

/-- Whether a module is marked live in the fabric map. -/
def State.alive (s : State) (m : Nat) : Bool := s.fab.modId == some m || (mapEntry s.fab.fmap m).1

/-- Creates a group and announces it (R423). -/
def State.newGroup (s : State) (g : Group) (jobId : BitVec 64) : State :=
  let s1 : State := { s with cas := { s.cas with groups := s.cas.groups ++ [g] } }
  s1.sendOthers g.members fun m => ctlPkt 0x28 m jobId g.gid g.digest

/-- Removes a group. -/
def State.dropGroup (s : State) (gid : Nat) : State :=
  { s with cas := { s.cas with groups := s.cas.groups.filter fun x => x.gid != gid
                               announced := s.cas.announced.filter fun x => x.1 != gid } }

/-! ### Ends of a job -/

/-- Starts the stop of a kernel with the fault STOPPED (07 R259, R261). -/
def State.haltKernel (s : State) (kid : Nat) : State :=
  match s.kernel? kid with
  | none => s
  | some k =>
    let s1 := s.kfaultOf kid (k.tiles.headD 0) 0 kfStopped 0 0
    ((s1.kernel? kid).map s1.stopKernel).getD s1

/-- Kernels of a job. -/
def State.kernelsOf (s : State) (h : Nat) : List Kernel := s.work.kernels.filter fun k => (k.entry.map (·.1)) == some h
/-- Whether a collective belongs to a job's groups. -/
def State.collOfJob (s : State) (h : Nat) (r : CollRun) : Bool := (s.group? r.gid).any fun g => g.job == h

/-- Move table entries to rank `d` whose bytes have all gone out, where `left` bytes to that rank have not. -/
def CollRun.wholeSent (r : CollRun) (g : Group) (i : Nat) : Bool :=
  (r.table[i]?).any fun e =>
    let l := r.moves g.rank e.2.1
    let left := ((r.out.filter fun p => p.dest == g.members.getD e.2.1 0).map fun p => p.payload.length).sum
    let upTo := ((l.filter fun x => decide (x.2 ≤ i)).map fun x => x.1.2.2.2.2).sum
    decide (upTo + left ≤ (l.map fun x => x.1.2.2.2.2).sum)
/-- Stops a collective: one that waits for its start ends with ABORTED; a started one sends nothing more, lands what comes,
and ends with ABORTED once what it sent is acknowledged (12 R466; 02 R71). -/
def State.haltColl (s : State) (r : CollRun) : State :=
  match s.group? r.gid, r.started with
  | some g, true => s.onColl r.rid fun x => { x with halted := true, out := [], landing := x.landing.filter (x.wholeSent g) }
  | _, _ => s.endColl r stAborted

/-- Stops what a job has in flight (R71; 12 R466; 15 R551) (DEDUCED, log entry 40). -/
def State.haltWork (s : State) (h : Nat) : State :=
  let s1 := (s.kernelsOf h).foldl (fun st k => st.haltKernel k.kid) s
  let l := s1.cas.colls.filter (s1.collOfJob h)
  let s2 := if l.isEmpty then s1 else (l.foldl State.haltColl s1).pump
  match s2.rolloutOf h with
  | some r => s2.rolloutEnd r stAborted
  | none => s2

/-- Removes a job's windows and groups, a group with outstanding instances once they have ended, and stops its pipeline
(11 R386; 12 R424; 16 R577). -/
def State.stripJob (s : State) (h : Nat) : State :=
  let s0 := ((s.job? h).map s.dropWindows).getD s
  let s1 := s0.onJob h fun j => { j with openStep := none, runLeft := none, pauseAt := none, restore := none, pdataNext := none }
  let gs := s1.cas.groups.filter fun g => g.job == h
  let s2 := gs.foldl (fun st g =>
    let st1 := st.finishWait (.groupCreate g.gid) stAborted 0 0 0
    if st1.cas.colls.all fun r => r.gid != g.gid then (st1.finishWait (.groupDestroy g.gid) stOK 0 0 0).dropGroup g.gid
    else st1.onGroup g.gid fun x => { x with st := .destroying }) s1
  s2.pipeHaltJob h

/-- Waits of commands on a job that end ABORTED when it fails (16 R577). -/
def jobWaits (h : Nat) : List Wait := [.jobStart h, .jobPause h, .stepRun h, .ckptTake h, .ckptRestore h, .rollout h]

/-- Step that a failure names: the open one, else the last closed (16 R576). -/
def Job.failStep (j : Job) : Nat := j.openStep.getD (j.lastClosed.getD 0)

/-- Moves a job to FAILED with a status; `tell` when this member is the first to know (16 R576, R577)
(DEDUCED, log entry 40). -/
def State.failJob (s : State) (h status : Nat) (tell : Bool) : State :=
  match s.job? h with
  | none => s
  | some j =>
    if j.st == .stopping || !j.live then s
    else
      let s1 := if tell then s.tellJob j 0x2C 0 (toLE 8 j.failStep ++ toLE 1 status ++ zeros 7) else s
      let s2 := (s1.onJob h fun x => { x with st := .failed }).event 0x0050 0xFF 0 (j.failStep % 2 ^ 32) status 0
      let s3 := if j.st == .starting && status = stMemberLost then s2.finishWait (.jobStart h) stMemberLost 0 0 0 else s2
      let s4 := (s3.haltWork h).stripJob h
      (jobWaits h).foldl (fun st w => st.finishWait w stAborted 0 0 0) s4

/-- Whether nothing of a job is in flight: no kernel, no collective, no parity write that is not acknowledged (R71; 12 R466). -/
def State.jobQuiet (s : State) (h : Nat) : Bool :=
  (s.kernelsOf h).isEmpty && (s.cas.colls.all fun r => !s.collOfJob h r) && s.fab.remotes.all fun r => r.what != .parity h

/-- Ends a job in STOPPING once nothing of it is in flight (R71). -/
def State.stoppedJob (s : State) (h : Nat) : State :=
  match s.job? h with
  | none => s
  | some j =>
    if j.st != .stopping || !s.jobQuiet h then s
    else
      let s1 := (s.stripJob h).onJob h fun x => { x with st := .stopped }
      s1.replyClosed j (.jobStop h) stOK

/-- Moves a job to STOPPING on this member (R67, R69, R71). -/
def State.stopJob (s : State) (h : Nat) : State :=
  match s.job? h with
  | none => s
  | some j =>
    if !j.live || j.st == .stopping then s
    else
      let s1 := s.onJob h fun x => { x with st := .stopping, pdataNext := none }
      let s2 := (jobWaits h).foldl (fun st w => st.finishWait w stAborted 0 0 0) s1
      (s2.haltWork h).stoppedJob h

/-- A job whose step entries all end OK or NON_FINITE goes on; the first other status fails it (02 R64; 16 R576). -/
def Job.badStatus (j : Job) : Option Nat :=
  let bad := j.entries.filterMap fun e => match e with
    | .done st => if st = stOK || st = stNonFinite then none else some st
    | _ => none
  match j.failWith with
  | some st => some st
  | none => bad.head?

/-- Pauses a job at a step boundary (02 job states); one that has been resumed already runs on (R67). -/
def State.pausedJob (s : State) (h : Nat) : State :=
  match s.job? h with
  | none => s
  | some j =>
    let s1 := s.onJob h fun x =>
      { x with st := if x.resumeNext then .running else .paused, pauseAt := none, runLeft := none, resumeNext := false }
    (s1.replyClosed j (.jobPause h) stOK).replyClosed j (.stepRun h) stOK

/-- Ends a group that could not be created: a mismatch fails JOB_START with BAD_PARAM and leaves no job; a restore and a
GROUP_CREATE end with the status (12 R423, R425; 16 R581, R583). -/
def State.failGroup (s : State) (g : Group) (status : Nat) : State :=
  let s1 := s.dropGroup g.gid
  if g.step then
    if status = stBadParam then
      let s2 := (s1.finishWait (.jobStart g.job) stBadParam 0 0 0).stripJob g.job
      { s2 with work := { s2.work with jobs := s2.work.jobs.filter fun j => j.handle != g.job } }
    else s1.failJob g.job status false
  else if (s1.job? g.job).any fun j => j.restore.any fun r => r.groups.contains g.gid then
    (s1.finishWait (.ckptRestore g.job) status 0 0 0).onJob g.job fun j => { j with restore := none }
  else s1.finishWait (.groupCreate g.gid) status 0 0 0

/-- State in which a member leaves STARTING: RUNNING, or PAUSED in stepped mode, and what JOB_CONTROL has brought since
(R66, R67). -/
def Job.startedAs (j : Job) : JobState :=
  if j.stepped && !j.resumeNext then .paused else if j.pauseAt.isSome then .pausing else .running
/-- A job leaves STARTING when its step group is complete (12 R425, 02 R66). -/
def State.startedJob (s : State) (h : Nat) : State :=
  match s.job? h with
  | none => s
  | some j =>
    if j.st != .starting then s
    else
      (s.onJob h fun x => { x with st := x.startedAs, resumeNext := false, openUs := s.clk.nowUs }).finishWait
        (.jobStart h) stOK (h % 2 ^ 16 + j.rank * 2 ^ 16) 0 0

/-- Takes the announcements that have come for a group being created: complete, mismatched, or a member dead
(12 R423, R425). -/
def State.checkGroup (s : State) (gid : Nat) : State :=
  match s.group? gid with
  | none => s
  | some g =>
    if g.st != .creating then s
    else
      let l := s.cas.announced.filter fun e => e.1 == gid
      if l.any fun e => e.2.2 != g.digest then s.failGroup g stBadParam
      else
        let heard := l.map fun e => e.2.1
        if g.members.all fun m => s.fab.modId == some m || heard.contains m then
          let s1 : State := { (s.onGroup gid fun x => { x with st := .ready }) with
            cas := { (s.onGroup gid fun x => { x with st := .ready }).cas with announced := s.cas.announced.filter fun e => e.1 != gid } }
          if g.step then s1.startedJob g.job
          else if (s1.job? g.job).any fun j => j.restore.any fun r => r.groups.contains gid then
            s1.onJob g.job fun j => { j with restore := j.restore.map fun r => { r with groups := r.groups.filter (· != gid) } }
          else s1.finishWait (.groupCreate gid) stOK g.rank (fld g.digest 0 8) 0
        else if g.members.any fun m => !s.alive m then s.failGroup g stMemberLost
        else s

/-- A module marked dead in the fabric map: its groups' creations and collectives end, restores with it end
(12 R423, R462; 16 R583). -/
def State.memberDead (s : State) (m : Nat) : State :=
  let s1 := (s.cas.groups.filter fun g => g.st == .creating && g.members.contains m).foldl (fun st g => st.failGroup g stMemberLost) s
  let s2 := s1.endColls (fun r => (s1.group? r.gid).any fun g => g.members.contains m) stMemberLost
  (s2.work.jobs.filter fun j => j.live && j.members.contains m).foldl (fun st j =>
    (if j.restore.isSome then st.finishWait (.ckptRestore j.handle) stMemberLost 0 0 0 else st).onJob j.handle fun x =>
      { x with restore := none, losses := x.losses + 1 }) s2

/-! ### Release of a tenant (02 R56 to R59) -/

/-- The commands in flight of the rings of attachment `a` belong to those of attachment `b`. -/
def State.moveRunning (s : State) (a b : Nat) : State :=
  { s with host := { s.host with running := s.host.running.map fun c => if c.att == a then { c with att := b } else c } }

/-- Unbinds a tenant from its attachment: its rings are kept and stop, and the commands taken from them, started or not,
complete into their reply slots (R41, R53, R55 to R57) (DEDUCED, log entry 41). -/
def State.unbind (s : State) (i : Nat) : State :=
  match (s.tenant? i).bind (·.att) with
  | none => s
  | some a =>
    let saved := ((s.host.atts[a]?).map fun x => x.rings.map fun r =>
      ({ base := r.base, replyBase := r.replyBase, enable := r.enable, log2 := r.log2, head := r.head, tail := r.tail,
         window := r.window, taken := r.taken } : SavedRing)).getD []
    let s1 := s.onAtt a fun x => { x with tenant := 0, rings := x.rings.map fun r => { r with enable := false, window := true, taken := [], stalled := false } }
    (s1.onTenant i fun t => { t with att := none, lastAtt := a, saved := saved }).moveRunning a (4 + i)

/-- Mover channels a tenant's commands may use (02 R73). -/
def Tenant.chans (t : Tenant) : List (Nat × Nat) :=
  ((tileList t.tiles.toNat).flatMap fun m => (List.range 8).map fun c => (m, 56 + c)) ++
    (List.range 8).map fun c => (8, 8 * (t.id - 1) + c)

/-- Whether nothing of a tenant is in flight. -/
def State.tenantQuiet (s : State) (t : Tenant) : Bool :=
  (s.work.kernels.all fun k => k.tenant != t.id) && (s.cas.colls.all fun r => r.tenant != t.id) && (s.work.jobs.all fun j => j.tenant != t.id || !j.live) &&
    (s.media.streams.all fun x => x.tenant != t.id || !s.inPipe x.handle) &&
    t.chans.all fun c => (s.chan? c.1 c.2).all fun x => x.act.isNone && !x.stopping

/-- Drops everything of a released tenant (02 R58, R59; 03 R101; 10 R342; 13; 14; 15 R554) (DEDUCED, log entry 96). -/
def State.dropTenant (s : State) (t : Tenant) : State :=
  let owned := fun h => (s.job? h).any fun j => j.tenant == t.id
  let s1 := (s.cas.groups.filter fun g => owned g.job).foldl (fun st g => st.dropGroup g.gid) s
  let s2 := s1.trim (quarterBase t.id) 0x40000000000
  let s3 : State := { s2 with
    work := { s2.work with jobs := s2.work.jobs.filter fun j => j.tenant != t.id }
    media := { s2.media with
      streams := s2.media.streams.filter fun x => x.tenant != t.id
      decPipes := s2.media.decPipes.filter fun p => s2.media.streams.any fun x => x.handle == p.2.handle && x.tenant != t.id
      encPipes := s2.media.encPipes.filter fun p => s2.media.streams.any fun x => x.handle == p.2.handle && x.tenant != t.id
      pipelines := s2.media.pipelines.filter fun p => p.tenant != t.id
      kvs := s2.media.kvs.filter fun k => k.tenant != t.id }
    tel := { s2.tel with powerCap := if t.tiles = 0xFF then 4000 else s2.tel.powerCap } }
  let s4 := (s3.host.running.filter fun c => c.tenant == t.id && c.wait != .release t.id && c.wait != .fence).foldl
    (fun st c => st.finish c stAborted 0 0 0) s3
  let s5 := s4.finishWait (.release t.id) stOK 0 0 0
  { s5 with host := { s5.host with
      tenants := s5.host.tenants.filter fun x => x.id != t.id
      clearTiles := s5.host.clearTiles ||| t.tiles
      clearHub := s5.host.clearHub ||| BitVec.ofNat 4 (2 ^ (t.id - 1)) } }

/-- Finishes a release once the stop rule is done with. -/
def State.releasedTenant (s : State) (i : Nat) : State :=
  match s.tenant? i with
  | none => s
  | some t => if t.releasing && s.tenantQuiet t then s.dropTenant t else s

/-- Starts the release of a tenant: jobs and kernels stop, channels stop, packets taken and not started return
ABORTED, streams close as MODE 1 (R56, R58, R71; 13 R488) (DEDUCED, log entry 17). -/
def State.releaseTenant (s : State) (i : Nat) : State :=
  match s.tenant? i with
  | none => s
  | some t =>
    let taken := (t.saved.flatMap (·.taken)) ++ ((t.att.bind fun a => s.host.atts[a]?).map fun x => x.rings.flatMap (·.taken)).getD []
    let s0 := (s.unbind i).onTenant i fun x => { x with releasing := true, saved := [] }
    let s1 := (s0.work.jobs.filter fun j => j.tenant == i).foldl (fun st j => (st.control j 3 0 atOnce).stopJob j.handle) s0
    let s2 := (s1.work.kernels.filter fun k => k.tenant == i).foldl (fun st k => st.haltKernel k.kid) s1
    let s3 := t.chans.foldl (fun st c => st.stopChan c.1 c.2) s2
    let s4 := s3.media.pipelines.foldl (fun st p => if p.tenant == i then st.pipeHalt p else st) s3
    let s5 := s4.endStreams fun x => x.tenant == i
    let s6 := (taken.filter fun k => !k.timedOut).foldl (fun st k => st.reply k.loc
      (replyBytes stAborted (BitVec.ofNat 16 (fld k.bytes 0 2)) (BitVec.ofNat 32 (fld k.bytes 4 4)) 0 0 0)) s5
    s6.releasedTenant i

end Sys2Proof.Machine
end

