-- ==== Sys2Proof/Machine/StepOps.lean ====
section
/-! DEFINITION. The close of a training step: the state record and group table (16 R557, R558), the parity pass (16
R560, R563, R564), ARRIVE and RELEASE over the tree of the step group (12 R468, R469), risk and the checkpoint trigger
(16 R573 to R575), checkpoints that become due (16 R565 to R567) and GUARD_OFF (16 R562, R585). -/

namespace Sys2Proof.Machine

/-! ### State record and group table -/

/-- S_e of a pipeline (14 R518). -/
def Pipeline.batches (p : Pipeline) : Nat := max 1 (ceilDiv (p.f 24 8) (p.f 8 4 * p.f 4 4))
/-- Epoch and batch of sequence number `n`. -/
def Pipeline.epochOf (p : Pipeline) (n : Nat) : Nat × Nat := (n / p.batches, n % p.batches)
/-- Derived position of a batch (14 R528). -/
def Pipeline.position (p : Pipeline) (batch : Nat) : Nat := batch * (p.f 8 4 * p.f 4 4) + p.f 12 4 * p.f 4 4
/-- Pipeline of a job. -/
def State.pipeOf (s : State) (h : Nat) : Option Pipeline :=
  s.media.pipelines.find? fun p => p.f 0 2 == h && p.st != .unconfigured

/-- Bytes padded with zeros to a multiple of 16. -/
def pad16 (b : Bytes) : Bytes := padTo (ceilDiv b.length 16 * 16) b
/-- Groups of a job that its group table holds, ascending. -/
def State.tableGroups (s : State) (h : Nat) : List Group :=
  (List.range 4096).filterMap fun g => s.cas.groups.find? fun x => x.gid == g && x.job == h && !x.step && x.st == .ready
/-- The group table area's contents (16 R558). -/
def State.groupTable (s : State) (j : Job) : Bytes :=
  pad16 (j.members.flatMap (toLE 2)) ++ (s.tableGroups j.handle).flatMap fun g =>
    pad16 (toLE 2 g.gid ++ toLE 1 g.vc ++ toLE 1 (if g.low then 1 else 0) ++ toLE 4 g.members.length ++ zeros 8 ++
      g.members.flatMap fun m => toLE 2 (j.members.idxOf m))
/-- The state record of a step (16 state record). -/
def State.stateRecord (s : State) (j : Job) (step : Nat) : Bytes :=
  let next := (s.pipeOf j.handle).map fun p => let e := p.epochOf (p.readNo + 1); (e.1, e.2, p.position e.2)
  let e := next.getD (0, 0, 0)
  toLE 4 0x47535431 ++ toLE 4 j.rank ++ toLE 8 j.jobId.toNat ++ toLE 8 j.seed.toNat ++ toLE 8 step ++ toLE 4 e.1 ++
    toLE 4 e.1 ++ toLE 8 e.2.1 ++ toLE 8 e.2.2 ++ toLE 4 j.members.length ++ toLE 4 (s.tableGroups j.handle).length ++
    s.planLayout (s.imgOf j) ++ zeros 4000
/-- Writes record and group table of a step, MAGIC last (R557). -/
def State.writeRecord (s : State) (j : Job) (step : Nat) : State :=
  let a := s.recordAt j (step % 2)
  let r := s.stateRecord j step
  let s1 := (s.store 5 (a + 4096) ((s.groupTable j).take (s.decl (s.imgOf j) 24 8))).1
  (((s1.store 5 (a + 4) (r.drop 4)).1).store 5 a (r.take 4)).1

/-! ### Parity (16 R560 to R564) -/

/-- Guard group, position and partner of a rank for guard size `k`, of `n` ranks. -/
def guardOf (k rank : Nat) : Nat × Nat := (rank / k, rank % k)
/-- Rank that holds P (`q` false) or Q of segment `seg` of guard group `g`. -/
def parityHost (n k g seg : Nat) (q : Bool) : Nat :=
  let h := (g + 1) % (n / k)
  h * k + (if q then (seg + 1) % k else seg)
/-- Packets of one parity pass: each segment, to its P host and its Q host, 512 bytes at a time (DEDUCED, log entry 85). -/
def State.passPackets (s : State) (j : Job) : Nat := if j.guardK = 0 then 0 else 2 * j.guardK * (s.segBytes j j.guardK / 512)
/-- Packet `i` of the parity pass of a step (R563). -/
def State.pdataPkt (s : State) (j : Job) (step i : Nat) : Pkt :=
  let per := s.segBytes j j.guardK / 512
  let off := i % per * 512
  let q := i / per % 2 == 1
  let seg := i / per / 2
  let g := guardOf j.guardK j.rank
  let at_ := seg * s.segBytes j j.guardK + off
  let img := s.imageBytes (s.imgOf j)
  let data := padTo 512 (s.bytesAt (s.bufAt j (step % 2) + at_) (min 512 (img - at_)))
  { pktBlank with
    ty := 0x15, vc := 7, dest := j.members.getD (parityHost j.members.length j.guardK g.1 seg q) 0, len := 512,
    a := BitVec.ofNat 48 (off + (g.2 + if q then 16 else 0) * 2 ^ 32 + seg * 2 ^ 40), j := BitVec.ofNat 64 step, payload := data }

/-- Sends parity packets while fewer than 64 are unacknowledged (R563; the number 64 affects only timing); at most `n`
of them (DEDUCED, log entry 44). -/
def State.pumpParity (s : State) (h step : Nat) : Nat → State
  | 0 => s
  | n + 1 =>
    match s.job? h with
    | none => s
    | some j =>
      match j.pdataNext with
      | none => s
      | some i =>
        if s.passPackets j ≤ i then s.onJob h fun x => { x with pdataNext := none }
        else if 64 ≤ j.pdataOut then s
        else match s.request (s.pdataPkt j step i) (.parity h) with
          | none => s
          | some (s1, sent) =>
            (s1.onJob h fun x => { x with pdataNext := some (i + 1), pdataOut := x.pdataOut + if sent then 1 else 0 }).pumpParity h step n
/-- Sends what a parity pass can send now. -/
def State.parityOn (s : State) (h step : Nat) : State :=
  match s.job? h with
  | none => s
  | some j => s.pumpParity h step (s.passPackets j + 1)
/-- Whether a parity pass has ended. -/
def Job.parityDone (j : Job) : Bool := j.pdataNext.isNone && j.pdataOut == 0

/-- Zeroes a generation of the guard region (R564) (DEDUCED, log entry 44). -/
def State.zeroGen (s : State) (j : Job) (step : Nat) : State :=
  if j.guardK = 0 || !s.trains j then s else s.zeroLanded (s.genAt j (step % 2)) (2 * s.segBytes j j.guardK)

/-! ### Risk (16 R573) -/

/-- A list's entries of the last `us` microseconds. -/
def recent (now us : Nat) (l : List Nat) : Nat := (l.filter fun t => decide (now ≤ t + us)).length
/-- Risk in units of 1/65,536, at most 65,535: the weights over the common denominator 1,200,000 (DEDUCED, log entry 18). -/
def State.risk (s : State) : Nat :=
  let now := s.clk.nowUs
  let hour := 3600000000
  let sum := fun (f : Tile → Nat) => (s.tiles.map f).sum
  let lines := sum fun t => recent now hour (t.mg.corrected.map (·.2))
  let frames := sum fun t => recent now (24 * hour) t.mg.retTimes
  let emerg := sum fun t => recent now hour t.gov.emergTimes
  let naks := (s.fab.ports.map fun p => recent now 60000000 p.nakTimes).sum
  let tj := s.tiles.foldl (fun m t => max m t.gov.tj) 0
  let checks := sum (fun t => (t.cores.map fun c => recent now hour c.faultTimes).sum) + recent now hour s.cas.residueTimes
  let fenced := sum fun t => (t.cores.filter (·.fenced)).length
  let total := min 240000 (24 * lines) + min 360000 (90000 * frames) + min 360000 (90000 * emerg) + min 240000 (4 * naks) +
    min 240000 ((tj - 950).toNat * 1200) + min 480000 (160000 * checks) + min 360000 (180000 * fenced)
  min 65535 (total * 65536 / 1200000)

/-! ### The tree (12 R431, R468) -/

/-- Lowest set bit of a rank as a power of two; a large power for rank 0. -/
def lowBit (n r : Nat) : Nat := if r = 0 then 2 ^ (Nat.log2 n + 1) else 2 ^ ((List.range 16).find? (bitOf r)).getD 0
/-- Ranks whose ARRIVE comes to rank `r`, and to which RELEASE goes on. -/
def treeBelow (n r : Nat) : List Nat :=
  ((List.range 16).map fun l => 2 ^ l).filterMap fun d => if d < lowBit n r && r + d < n then some (r + d) else none
/-- Rank above rank `r`. -/
def treeAbove (n r : Nat) : Nat := r - lowBit n r

/-- Lower median of a list (R469). -/
def lowerMedian (l : List Nat) : Option Nat := (l.mergeSort (· ≤ ·))[(l.length - 1) / 2]?

/-- Whether rank 0 sets CKPT_DUE (16 R574). -/
def State.ckptDue (s : State) (j : Job) (risk : Nat) : Bool :=
  let p := j.policy
  let since := s.clk.nowUs - j.lastDueUs
  p.auto && decide (p.minS * 1000000 ≤ since) &&
    ((decide (j.members.length ≤ 256) && decide (p.threshold ≤ risk) && j.armed) ||
      (decide (256 < j.members.length) && decide (j.intervalUs ≤ since)) || decide (p.maxS * 1000000 ≤ since))

/-- Tiers of an automatic checkpoint, occasion `k` (16 R567, R572, R574). -/
def State.autoTiers (s : State) (j : Job) (k : Nat) : Nat :=
  (if (s.tenant? j.tenant).any fun t => t.tiles == 0xFF then 1 else 0) +
    if j.policy.sharedEvery ≠ 0 && k % j.policy.sharedEvery == 0 && j.policy.sharedBytes ≠ 0 then 2 else 0

/-- Whether a slot is valid: MAGIC, and the image matches IMAGE_DIGEST (R568). -/
def CkptSlot.valid (c : CkptSlot) : Bool := fld c.commit 0 4 == 0x434B5031 && shake256 c.image 32 == fldBytes c.commit 72 32
/-- SLOT_SEQ of a slot's commit record. -/
def CkptSlot.seqNo (c : CkptSlot) : Nat := fld c.commit 32 8
/-- The slot to write: the one that does not hold the valid commit with the higher SLOT_SEQ (R568). -/
def slotToWrite (a b : CkptSlot) : Nat :=
  if a.valid && (!b.valid || decide (b.seqNo < a.seqNo)) then 1 else 0
/-- A reservoir slot replaced. -/
def State.setSlot (s : State) (i : Nat) (c : CkptSlot) : State :=
  if i = 0 then { s with resv := { s.resv with slot0 := c } } else { s with resv := { s.resv with slot1 := c } }
/-- The tiers that are open to the tenant of a job: the reservoir's only where it holds all eight tiles (R567). -/
def State.openTiers (s : State) (h tiers : Nat) : Nat :=
  if (s.job? h).any fun j => (s.tenant? j.tenant).any fun t => t.tiles == 0xFF then tiers else tiers - tiers % 2
/-- Starts the checkpoint of a closed step in the tiers named that are open; the reservoir slot to be written loses its commit record
first (16 R565, R568). -/
def State.startCkpt (s : State) (h step named : Nat) : State :=
  let tiers := s.openTiers h named
  if tiers = 0 then s
  else
    let slot := slotToWrite s.resv.slot0 s.resv.slot1
    let c : CkptRun :=
      { step := step, tiers := tiers, left := tiers, slot := slot, slotSeq := 0, status := 0, costUs := 0, good := 0 }
    let s1 := s.onJob h fun j => { j with ckpt := some c }
    if bitOf tiers 0 && !s.resv.resHold && s.resv.sparePct != 0 then s1.setSlot slot { commit := [], image := [], st := 1 } else s1

/-- Module that makes a segment of a job unrecoverable: with more than two erasures, the last lost by rank (16 R562,
R585). -/
def State.unrecoverable (s : State) (j : Job) : Option Nat :=
  let n := j.members.length
  let k := j.guardK
  if k = 0 then none
  else
    let lost := fun r => !s.alive (j.members.getD r 0)
    (List.range (n / k)).findSome? fun g =>
      let data := ((List.range k).map fun i => g * k + i).filter lost
      (List.range k).findSome? fun seg =>
        let hosts := [parityHost n k g seg false, parityHost n k g seg true].filter lost
        let l := data ++ hosts
        if l.length ≤ 2 then none else l.getLast?.map fun r => j.members.getD r 0

/-- Closes the open step (12 R468; 02 R66, R68; 14 R519; 16 R559, R564, R565, R574; 15 R549) (DEDUCED, log entry 90). -/
def State.closeStep (s : State) (h : Nat) (due : Bool) : State :=
  match s.job? h with
  | none => s
  | some j =>
    match j.openStep with
    | none => s
    | some k =>
      let now := s.clk.nowUs
      let excess : Int := (now : Int) - j.openUs - ((lowerMedian j.times).getD 0 : Nat)
      let guard := match j.guardNext with
        | some (g, at_) => if at_ ≤ k then (g, none) else (j.guardK, some (g, at_))
        | none => (j.guardK, none)
      let s1 := s.onJob h fun x =>
        { x with
          openStep := none, lastClosed := some k, closedSteps := x.closedSteps + 1, arrivals := [], arrived := false,
          sentUp := false, workEnded := false, entries := [], openUs := now, guardK := guard.1, guardNext := guard.2,
          parityStep := if x.guardK = 0 || guard.1 != x.guardK then none else some k,
          ckpt := x.ckpt.map fun c => { c with costUs := c.costUs + excess }, costOpen := none,
          costUs := (x.costOpen.map fun c => (c + excess).toNat).or x.costUs,
          dueCount := x.dueCount + if due then 1 else 0, lastDueUs := if due then now else x.lastDueUs,
          runLeft := x.runLeft.map (· - 1), ckptAt := if (x.ckptAt.map (·.2)) == some k then none else x.ckptAt }
      let j1 := (s1.job? h).getD j
      let s2 := s1.zeroGen j1 (k + 1)
      let s3 := if bitOf (s2.planUses (s2.imgOf j)) 0 then
          (match s2.pipeOf h with
            | some p => s2.onPipe p.tenant fun x => { x with buffers := x.buffers.filter (fun b => b.n != x.readNo), readNo := x.readNo + 1 }
            | none => s2)
        else s2
      let cmdTiers := match j.ckptAt with
        | some (t, at_) => if at_ = k then t else 0
        | none => 0
      let tiers := cmdTiers ||| (if due then s3.autoTiers j (j.dueCount + 1) else 0)
      let s4 := if tiers = 0 then s3
        else if j1.ckpt.isSome then s3.onJob h fun x => { x with ckptAt := some (tiers, k) } else s3.startCkpt h k tiers
      let s5 := match s4.unrecoverable j1 with
        | some m => if s4.trains j then s4.event 0x0054 0xFF 0 (k % 2 ^ 32) m 0 else s4
        | none => s4
      let s6 := match s5.rolloutOf h with
        | some r => s5.rolloutEnd r stOK
        | none => s5
      let pause := (j.st == .pausing && (j.pauseAt.any fun p => decide (p ≤ k))) || j1.runLeft == some 0
      if pause then s6.pausedJob h else s6

/-- RELEASE goes down the tree and the step closes here (R468). -/
def State.releaseOn (s : State) (j : Job) (step : Nat) (skip due : Bool) : State :=
  let flags := (if skip then 1 else 0) + if due then 2 else 0
  let b := toLE 8 j.jobId.toNat ++ toLE 8 step ++ toLE 8 flags
  let s1 := (treeBelow j.members.length j.rank).foldl (fun st r => (st.send (ctlPkt 0x2A (j.members.getD r 0) j.jobId 0 b)).1) s
  s1.closeStep j.handle due

/-- Goes on once this member and every rank below it have arrived: ARRIVE to the rank above, or RELEASE from rank 0
(R468; 16 R573, R574). -/
def State.treeOn (s : State) (h : Nat) : State :=
  match s.job? h with
  | none => s
  | some j =>
    match j.openStep with
    | none => s
    | some k =>
      let n := j.members.length
      if !j.arrived || j.sentUp || !((treeBelow n j.rank).all fun r => j.arrivals.any fun a => a.1 == r) then s
      else
        let risk := (j.arrivals.map (·.2)).foldl max s.risk
        if j.rank ≠ 0 then
          let b := toLE 8 j.jobId.toNat ++ toLE 8 k ++ toLE 8 risk
          ((s.send (ctlPkt 0x29 (j.members.getD (treeAbove n j.rank) 0) j.jobId 0 b)).1).onJob h fun x => { x with sentUp := true }
        else
          let p := j.policy
          let armed := j.armed || decide (2 * risk < p.threshold) || decide (j.lastDueUs + 3600000000 ≤ s.clk.nowUs)
          let j1 := { j with armed := armed }
          let due := s.ckptDue j1 risk
          let s1 := s.onJob h fun x => { x with armed := armed && !due }
          s1.releaseOn j1 k j.skip due

/-- This member arrives: its work has ended and its parity is acknowledged (R468, R469; 16 R564). -/
def State.tryArrive (s : State) (h : Nat) : State :=
  match s.job? h with
  | none => s
  | some j =>
    if !j.workEnded || j.arrived || !j.parityDone || j.openStep.isNone || !(j.st == .running || j.st == .pausing) then s
    else
      let t := s.clk.nowUs - j.openUs
      let med := lowerMedian j.times
      let slow := decide (8 ≤ j.closedSteps) && med.any fun m => decide (2 * m < t)
      let s1 := if slow then s.event 0x0033 0xFF 0 j.stepGroup (s.fab.modId.getD 0) 0 else s
      (s1.onJob h fun x => { x with arrived := true, times := (t :: x.times).take 63 }).treeOn h

end Sys2Proof.Machine
end

