-- ==== Sys2Proof/Machine/ResilOps.lean ====
section
/-! DEFINITION. What restore and checkpoints share (16): arithmetic of the guard code (R560 to R562), holdings (R579),
the choice of step and source (R580), rebuilding from the guard, and the actions of R581; the seek of a pipeline (14
R527, R528); and what the module does by itself once the work it waits for has ended. -/

namespace Sys2Proof.Machine

/-! ### The guard code (R560, R561) -/

/-- A symbol multiplied by α = 0x02 in GF(2^8) with x^8 + x^4 + x^3 + x^2 + 1. -/
def gfDouble (x : Nat) : Nat := if x < 128 then 2 * x else (2 * x) ^^^ 0x11D
/-- Product in GF(2^8). -/
def gfMul (a b : Nat) : Nat :=
  ((List.range 8).foldl (fun (acc : Nat × Nat) i => (if bitOf b i then acc.1 ^^^ acc.2 else acc.1, gfDouble acc.2)) (0, a)).1
/-- Power in GF(2^8). -/
def gfPow (a n : Nat) : Nat := (List.range n).foldl (fun x _ => gfMul x a) 1
/-- Inverse of a nonzero symbol. -/
def gfInv (a : Nat) : Nat := gfPow a 254
/-- Bytes multiplied by a symbol. -/
def gfScale (k : Nat) (bs : Bytes) : Bytes := bs.map fun b => BitVec.ofNat 8 (gfMul k b.toNat)
/-- Bytes added in GF(2^8). -/
def gfAdd (a b : Bytes) : Bytes := List.zipWith (· ^^^ ·) a b

/-- The data symbol of position `a` from the symbols received, `lost` being the positions of the group whose image is
lost; P is symbol `k` and Q symbol `k + 1` (R561). -/
def gfRecover (k a : Nat) (lost : List Nat) (got : List (Nat × Bytes)) : Bytes :=
  let sym := fun i => ((got.find? fun g => g.1 == i).map (·.2))
  let data := got.filter fun g => decide (g.1 < k)
  let zero := zeros ((got.head?.map (·.2.length)).getD 0)
  let p := data.foldl (fun x g => gfAdd x g.2) ((sym k).getD zero)
  let q := data.foldl (fun x g => gfAdd x (gfScale (gfPow 2 g.1) g.2)) ((sym (k + 1)).getD zero)
  match lost.find? (· != a) with
  | none => if (sym k).isSome then p else gfScale (gfInv (gfPow 2 a)) q
  | some b =>
    let lo := min a b
    let hi := max a b
    let dLo := gfScale (gfInv (gfPow 2 lo ^^^ gfPow 2 hi)) (gfAdd (gfScale (gfPow 2 hi) p) q)
    if a = lo then dLo else gfAdd p dLo

/-! ### Checkpoint slots (R568 to R570) -/

/-- Slot of a shared store, as last written (R570). -/
def State.sharedSlot (s : State) (att addr : Nat) : CkptSlot :=
  ((s.resv.shared.find? fun e => e.1 == att && e.2.1 == addr).map (·.2.2)).getD CkptSlot.empty
/-- Whether an attachment can carry the shared store: it is up and bound. -/
def State.attServes (s : State) (a : Nat) : Bool := (s.host.atts[a]?).any fun x => x.link && x.tenant != 0

/-! ### Holdings (R579) -/

/-- Step of a state record that belongs to rank, seed, member count and layout of a job. -/
def State.recordStep (s : State) (j : Job) (r : Bytes) : Option Nat :=
  if fld r 0 4 == 0x47535431 && fld r 4 4 == j.rank && fld r 56 4 == j.members.length && fld r 16 8 == j.seed.toNat &&
      fldBytes r 64 32 == s.planLayout (s.imgOf j) then some (fld r 24 8) else none
/-- Step of a slot that counts for a job. -/
def State.slotStep (s : State) (j : Job) (c : CkptSlot) : Option Nat :=
  let img := s.imgOf j
  if c.valid && fld c.commit 4 4 == j.rank && fldBytes c.commit 40 32 == s.planLayout img && c.image.length == s.imageBytes img then
    s.recordStep j (fldBytes c.image (s.decl img 16 8) 96) else none
/-- Step of the image in state buffer `b`, unless a line of it cannot be read. -/
def State.imageStep (s : State) (j : Job) (b : Nat) : Option Nat :=
  let bad := (s.badLines (s.bufAt j b) (s.imageBytes (s.imgOf j))).any fun l => match s.lineErrAt l with
    | some (.symbol _) => false
    | _ => true
  if bad then none else (s.recordStep j (s.bytesAt (s.recordAt j b) 96)).filter fun k => k % 2 == b
/-- Attachment and slot addresses of the shared store of a restore. -/
def Job.sharedAt (j : Job) (r : RestoreRun) : Nat × Nat × Nat :=
  let base := if r.sharedAddr = 0 then (j.policy.sharedAtt, j.policy.sharedAddr) else (r.sharedAtt, r.sharedAddr)
  (base.1, base.2, base.2 + j.policy.sharedBytes)
/-- The shared slots of a restore that this module can read. -/
def State.sharedSlots (s : State) (j : Job) (r : RestoreRun) : CkptSlot × CkptSlot :=
  let a := j.sharedAt r
  if !s.attServes a.1 then (CkptSlot.empty, CkptSlot.empty)
  else (s.sharedSlot a.1 a.2.1, if a.2.2 = a.2.1 then CkptSlot.empty else s.sharedSlot a.1 a.2.2)
/-- What this member holds of the old job. -/
def State.ownHoldings (s : State) (j : Job) (r : RestoreRun) : Holdings :=
  let survivor := (r.oldMembers[j.rank]?).isSome && r.oldMembers[j.rank]? == s.fab.modId
  let own := fun (x : Option Nat) => if survivor then x else none
  let sh := s.sharedSlots j r
  let old := s.work.jobs.find? fun x => x.jobId == r.oldJob && x.tenant == j.tenant && x.handle != j.handle
  let same := fun (x : Job) => x.rank == j.rank && x.members.length == j.members.length && x.seed == j.seed && x.guardK == j.guardK &&
    s.planLayout (s.imgOf x) == s.planLayout (s.imgOf j)
  let parity := old.bind fun x => if same x && x.parityStep == x.lastClosed then x.parityStep else none
  { oldJob := r.oldJob, image0 := own (s.imageStep j 0), image1 := own (s.imageStep j 1),
    slot0 := own (s.slotStep j s.resv.slot0), slot1 := own (s.slotStep j s.resv.slot1),
    shared0 := s.slotStep j sh.1, shared1 := s.slotStep j sh.2, parity := own parity }

/-- A step as eight bytes, all ones for none (DEDUCED, log entry 86). -/
def stepBytes (x : Option Nat) : Bytes := toLE 8 (x.getD (2 ^ 64 - 1))
/-- A step read from eight bytes. -/
def stepOf (v : Nat) : Option Nat := if v = 2 ^ 64 - 1 then none else some v
/-- The holdings record (11) (DEDUCED, log entry 86). -/
def Holdings.bytes (h : Holdings) : Bytes :=
  toLE 8 h.oldJob.toNat ++ stepBytes h.image0 ++ stepBytes h.image1 ++ stepBytes h.slot0 ++ stepBytes h.slot1 ++
    stepBytes h.shared0 ++ stepBytes h.shared1 ++ stepBytes h.parity
/-- A holdings record read from bytes (DEDUCED, log entry 86). -/
def holdingsOf (b : Bytes) : Holdings :=
  let f := fun o => stepOf (fld b o 8)
  { oldJob := BitVec.ofNat 64 (fld b 0 8), image0 := f 8, image1 := f 16, slot0 := f 24, slot1 := f 32, shared0 := f 40,
    shared1 := f 48, parity := f 56 }

/-! ### Step and source (R562, R580) -/

/-- Holdings of a rank. -/
def RestoreRun.of (r : RestoreRun) (rank : Nat) : Option Holdings := (r.holdings.find? fun e => e.1 == rank).map (·.2)
/-- Whether a rank holds an image, its parity generation, a reservoir slot, a shared slot, of a step. -/
def RestoreRun.image (r : RestoreRun) (k rank : Nat) : Bool := (r.of rank).any fun h => h.image0 == some k || h.image1 == some k
def RestoreRun.hosts (r : RestoreRun) (k rank : Nat) : Bool := (r.of rank).any fun h => h.parity == some k
def RestoreRun.inSlot (r : RestoreRun) (k rank : Nat) : Bool := (r.of rank).any fun h => h.slot0 == some k || h.slot1 == some k
def RestoreRun.inShared (r : RestoreRun) (k rank : Nat) : Bool := (r.of rank).any fun h => h.shared0 == some k || h.shared1 == some k
/-- Positions of a guard group whose image of a step is lost. -/
def RestoreRun.lost (r : RestoreRun) (k size g : Nat) : List Nat :=
  (List.range size).filter fun i => !r.image k (g * size + i)
/-- Whether every segment of a guard group can be recovered (R562). -/
def RestoreRun.guards (r : RestoreRun) (n k size g : Nat) : Bool :=
  size != 0 && (List.range size).all fun seg =>
    let hosts := [parityHost n size g seg false, parityHost n size g seg true].filter fun h => !r.hosts k h
    decide ((r.lost k size g).length + hosts.length ≤ 2)
/-- Source of a rank at a step: 0 retained, 1 guard, 2 reservoir, 3 shared store. -/
def RestoreRun.sourceOf (r : RestoreRun) (n size k rank : Nat) : Option Nat :=
  let near := r.source = 0 || r.source = 1
  if near && r.image k rank then some 0
  else if near && size != 0 && r.guards n k size (rank / size) then some 1
  else if (r.source = 0 || r.source = 2) && r.inSlot k rank then some 2
  else if (r.source = 0 || r.source = 3) && r.inShared k rank then some 3
  else none
/-- Steps that any holdings name. -/
def RestoreRun.steps (r : RestoreRun) : List Nat :=
  (r.holdings.flatMap fun e => [e.2.image0, e.2.image1, e.2.slot0, e.2.slot1, e.2.shared0, e.2.shared1].filterMap id).eraseDups
/-- The restore step: the highest, or the named one, at which every rank has a source. -/
def RestoreRun.pick (r : RestoreRun) (n size : Nat) : Option Nat :=
  let l := r.steps.filter fun k => (r.step.all (· == k)) && (List.range n).all fun m => (r.sourceOf n size k m).isSome
  l.foldl (fun acc k => some (max k (acc.getD 0))) none

/-! ### A pipeline's seek (14 R527, R528) -/

/-- Sets the data position of a pipeline and marks its batch buffers empty; the derived position, and whether the saved
counter differs from it. -/
def State.seekPipe (s : State) (p : Pipeline) (epoch batch savedEpoch savedPos : Nat) : State × Nat × Bool :=
  let d := p.position batch
  let n := epoch * p.batches + batch
  let s1 := (List.range (p.f 2 1 + 1)).foldl (fun st i => st.storeSoon 7 (p.bufAt i) (toLE 1 0)) s
  let s2 := (s1.onPipe p.tenant fun x =>
    { x with seqNo := n, readNo := n, buffers := [], samples := [] }).endFeeds p.tenant fun _ => true
  let off := savedEpoch != epoch || savedPos != d
  (if off then s2.event 0x0042 0xFF 0 (savedPos % 2 ^ 32) (d % 2 ^ 32) 0 else s2, d, off)

/-! ### The course of a restore (R580, R581) -/

/-- Changes the restore in progress of a job. -/
def State.onRun (s : State) (h : Nat) (f : RestoreRun → RestoreRun) : State :=
  s.onJob h fun j => { j with restore := j.restore.map f }
/-- Ends a restore with a status and nothing restored. -/
def State.endRestore (s : State) (h status : Nat) : State :=
  (s.finishWait (.ckptRestore h) status 0 0 0).onJob h fun j => { j with restore := none }
/-- The restore of a job, at a stage. -/
def State.restoring (s : State) (h stage : Nat) : Option (Job × RestoreRun × Nat × Nat) :=
  match s.job? h with
  | none => none
  | some j => match j.restore with
    | none => none
    | some r => if r.stage = stage then some (j, r, (r.chosen.map (·.1)).getD 0, (r.chosen.map (·.2)).getD 0) else none

/-- Selects step and source once every member's holdings have come. -/
def State.restoreChoose (s : State) (h : Nat) : State :=
  match s.restoring h 0 with
  | none => s
  | some (j, r, _, _) =>
    let n := j.members.length
    if !(List.range n).all (fun m => (r.of m).isSome) then s
    else match r.pick n j.guardK with
      | none => s.endRestore h stMemberLost
      | some k =>
        let src := (r.sourceOf n j.guardK k j.rank).getD 0
        let first : Rebuild := { seg := 0, off := 0, left := 0, got := [] }
        let s1 := s.onRun h fun x => { x with chosen := some (k, src), stage := 1, rebuild := if src = 1 then some first else none }
        let put := fun (c : CkptSlot) => (s1.store 5 (s1.bufAt j (k % 2)) c.image).1
        if src = 2 then put (if s.slotStep j s.resv.slot0 = some k then s.resv.slot0 else s.resv.slot1)
        else if src = 3 then
          let sh := s.sharedSlots j r
          put (if s.slotStep j sh.1 = some k then sh.1 else sh.2)
        else s1

/-- Symbols a piece is rebuilt from: number, module and local offset. -/
def State.symbols (s : State) (j : Job) (r : RestoreRun) (k : Nat) (b : Rebuild) : List (Nat × Nat × Nat) :=
  let size := j.guardK
  let n := j.members.length
  let g := j.rank / size
  let z := s.segBytes j size
  let lost := r.lost k size g
  let at_ := s.bufAt j (k % 2) + b.seg * z + b.off
  let data := ((List.range size).filter fun i => !lost.contains i).map fun i => (i, j.members.getD (g * size + i) 0, at_)
  let par := fun q =>
    let m := parityHost n size g b.seg q
    (size + if q then 1 else 0, j.members.getD m 0, s.genAt j (k % 2) + (if q then z else 0) + b.off)
  let p := r.hosts k (parityHost n size g b.seg false)
  data ++ if 2 ≤ lost.length then [par false, par true] else if p then [par false] else [par true]

/-- Bytes of the piece in progress. -/
def State.pieceBytes (s : State) (j : Job) (b : Rebuild) : Nat :=
  min 512 (s.imageBytes (s.imgOf j) - (b.seg * s.segBytes j j.guardK + b.off))

/-- Asks for the symbols of the piece in progress that have neither come nor been asked for, while tags are free. -/
def State.rebuildAsk (s : State) (h : Nat) : State :=
  match s.restoring h 1 with
  | none => s
  | some (j, r, k, _) =>
    match r.rebuild with
    | none => s
    | some b =>
      let need := (s.symbols j r k b).filter fun y =>
        b.got.all (fun g => g.1 != y.1) && s.fab.remotes.all fun q => q.what != .rebuild h y.1
      need.foldl (fun st y =>
        match st.request (reqPkt' y.2.1 j.jobId y.2.2 (s.pieceBytes j b)) (.rebuild h y.1) with
        | none => st
        | some (s1, true) => s1
        | some (s1, false) => s1.endRestore h stMemberLost) s
where
  /-- A READ_REQ for a symbol. -/
  reqPkt' (m : Nat) (job : BitVec 64) (a n : Nat) : Pkt :=
    { pktBlank with ty := 1, vc := 5, dest := m, j := job, a := BitVec.ofNat 48 a, len := n }

/-- A symbol has come: the piece is written once all of its symbols have, and the next one begins. -/
def State.rebuildGot (s : State) (h sym : Nat) (bs : Bytes) : State :=
  match s.restoring h 1 with
  | none => s
  | some (j, r, k, _) =>
    match r.rebuild with
    | none => s
    | some b =>
      let c : Rebuild := { b with got := b.got ++ [(sym, bs)] }
      if (s.symbols j r k b).any fun y => c.got.all fun g => g.1 != y.1 then s.onRun h fun x => { x with rebuild := some c }
      else
        let z := s.segBytes j j.guardK
        let d := gfRecover j.guardK (j.rank % j.guardK) (r.lost k j.guardK (j.rank / j.guardK)) c.got
        let s1 := (s.store 5 (s.bufAt j (k % 2) + b.seg * z + b.off) d).1
        let next := b.seg * z + b.off + 512
        let more : Rebuild := { seg := next / z, off := next % z, left := 0, got := [] }
        s1.onRun h fun x => { x with rebuild := if next < s.imageBytes (s.imgOf j) then some more else none }

/-- The groups of a group table: id, channel, shape, member ranks (R558). -/
def tableEntries : Nat → Bytes → List (Nat × Nat × Nat × List Nat)
  | 0, _ => []
  | n + 1, b =>
    let k := fld b 4 4
    (fld b 0 2, fld b 2 1, fld b 3 1, (List.range k).map fun i => fld b (16 + 2 * i) 2) ::
      tableEntries n (b.drop (ceilDiv (16 + 2 * k) 16 * 16))

/-- Recreates the groups of the table with the new member list (action 2 of R581). -/
def State.restoreGroups (s : State) (h : Nat) : State :=
  match s.restoring h 1 with
  | none => s
  | some (j, r, k, _) =>
    if r.rebuild.isSome then s
    else
      let a := s.recordAt j (k % 2)
      let t := s.bytesAt (a + 4096) (s.decl (s.imgOf j) 24 8)
      let l := tableEntries (s.numAt (a + 60) 4) (t.drop (ceilDiv (2 * j.members.length) 16 * 16))
      let s1 := s.onRun h fun x => { x with stage := 2 }
      if l.any fun e => (s1.group? e.1).isSome then s1.endRestore h stBadParam
      else
        let s2 := l.foldl (fun st e =>
          let ids := e.2.2.2.map fun m => j.members.getD m 0
          let g : Group :=
            { gid := e.1, vc := e.2.1, low := e.2.2.1 == 1, job := h, members := ids,
              rank := ids.idxOf (s.fab.modId.getD 0), digest := groupDigest e.1 e.2.1 e.2.2.1 j.jobId ids [],
              st := if ids.length = 1 then .ready else .creating, step := false, issued := 0, doomed := [] }
          let st1 := if ids.length = 1 then st else st.onRun h fun x => { x with groups := x.groups ++ [e.1] }
          st1.newGroup g j.jobId) s1
        l.foldl (fun st e => st.checkGroup e.1) s2

/-- Begins the parity pass once the groups are complete (action 3). -/
def State.restoreParity (s : State) (h : Nat) : State :=
  match s.restoring h 2 with
  | none => s
  | some (j, r, k, _) =>
    if r.groups != [] then s
    else
      let off := j.guardK = 0
      ((s.onRun h fun x => { x with stage := 3, zeroed := off }).onJob h fun x =>
        { x with pdataNext := if off then none else some 0 }).parityOn h k

/-- Zeroes the hosted generation for the pass, after every rank that is rebuilt from it has begun to send: that rank has
then read what it needs (DEDUCED, log entry 22). -/
def State.restoreZero (s : State) (h : Nat) : State :=
  match s.restoring h 3 with
  | none => s
  | some (j, r, k, _) =>
    let n := j.members.length
    let g := (j.rank / j.guardK + n / j.guardK - 1) % (n / j.guardK)
    let wait := (List.range j.guardK).any fun i =>
      r.sourceOf n j.guardK k (g * j.guardK + i) == some 1 &&
        s.fab.rx.all fun p => !(p.ty == 0x15 && p.src == j.members.getD (g * j.guardK + i) 0)
    if r.zeroed || wait then s else (s.zeroGen j k).onRun h fun x => { x with zeroed := true }

/-- Actions 4 and 5, and the announcement to every member. -/
def State.restoreFinish (s : State) (h : Nat) : State :=
  match s.restoring h 3 with
  | none => s
  | some (j, r, k, _) =>
    if !j.parityDone || !r.zeroed then s
    else
      let a := s.recordAt j (k % 2)
      let x : State × Nat × Bool := match s.pipeOf h with
        | some p => s.seekPipe p (s.numAt (a + 32) 4) (s.numAt (a + 40) 8) (s.numAt (a + 36) 4) (s.numAt (a + 48) 8)
        | none => (s, 0, false)
      let s1 := x.1.onJob h fun y =>
        { y with lastClosed := some k, parityStep := if y.guardK = 0 then none else some k,
                 restore := y.restore.map fun q => { q with stage := 4, position := x.2.1, resync := x.2.2, done := q.done ++ [s.fab.modId.getD 0] } }
      (s1.zeroGen j (k + 1)).tellJob j 0x22 0 (toLE 8 k)

/-- Replies once every member has announced completion. -/
def State.restoreReply (s : State) (h : Nat) : State :=
  match s.restoring h 4 with
  | none => s
  | some (j, r, k, src) =>
    if j.members.all r.done.contains then
      ((s.event 0x0053 0xFF 0 (k % 2 ^ 32) src 0).finishWait (.ckptRestore h) (if r.resync then stRngResync else stOK) k src
        r.position).onJob h fun x => { x with restore := none }
    else s

/-- Carries a restore as far as it can go now. -/
def State.restoreOn (s : State) (h : Nat) : State :=
  ((((((s.restoreChoose h).rebuildAsk h).restoreGroups h).restoreParity h).restoreZero h).restoreFinish h).restoreReply h

/-- What moves on by itself once the work it waits for has ended: failing jobs, stopping jobs, restores, releases
(DESIGN CHOICE, log entry 13). -/
def State.settle (s : State) : State :=
  let s1 := s.work.jobs.foldl (fun st j => match (st.job? j.handle).bind Job.badStatus with
    | some b => st.failJob j.handle b true
    | none => st) s
  let s2 := s1.work.jobs.foldl (fun st j => (st.stoppedJob j.handle).restoreOn j.handle) s1
  s2.host.tenants.foldl (fun st t => st.releasedTenant t.id) s2

end Sys2Proof.Machine
end

