-- ==== Sys2Proof/Machine/Governor.lean ====
section
/-! DEFINITION. The margin governor, its policies and the telemetry page (03): GOVERNOR_LOOP, SLACK_EMERGENCY,
FLOOR_HOLD_EXPIRY, FLOOR_MEASURE, AGEING_MEASUREMENT, TELEMETRY_PUBLISH, POWER_CAP, OPERATING_POLICY and
TELEMETRY_READ. -/

namespace Sys2Proof.Machine

/-! ### Limits and clamps -/

abbrev limNone : Nat := 0
abbrev limFloor : Nat := 1
abbrev limCap : Nat := 2
abbrev limThermal : Nat := 3
abbrev limElectrical : Nat := 4
abbrev limRailMax : Nat := 5

/-- R101: the applied cap; a new carrier cap is in force from the next governor loop on (19 CARRIER_CAP) (DEDUCED, log entry
101). -/
def State.appliedCap (s : State) : Nat := min s.tel.powerCap s.tel.capLive
/-- R93: the margin floor of a tile. -/
def Gov.vFloor (g : Gov) : Nat := max g.sentinelFloor (g.heldFloor.getD 0) + g.guard
/-- R106: the effective floor. -/
def Gov.effFloor (g : Gov) : Nat := min (g.vFloor + g.policy.marginAdd) 850
/-- One 5 mV step from a rail towards a value (R95). -/
def railStep (rail v : Nat) : Nat :=
  if rail + 5 ≤ v then rail + 5 else if v + 5 ≤ rail then rail - 5 else v
/-- A ceiling lowered by one step, from the rail it has to move (DEDUCED, log entry 66). -/
def lowerCeil (ceil rail : Nat) : Nat := max 550 (min ceil rail - 5)
/-- A ceiling raised by one step (DEDUCED, log entry 66). -/
def raiseCeil (ceil : Nat) : Nat := min 850 (ceil + 5)
/-- Measured beat rate at a rail. -/
def senseBeat (x : Sensors) (rail : Nat) : Nat := x.beat.getD ((rail - 550) / 5) 0
/-- R106: the lowest 5 mV step whose measured beat rate reaches the target, or 850. -/
def senseRail (x : Sensors) (target : Nat) : Nat :=
  (((List.range 61).map fun i => 550 + 5 * i).find? fun v => decide (target ≤ senseBeat x v)).getD 850

/-- Records POLICY_CLAMPED and counts it (R109). -/
def State.clamped (s : State) (tile quantity requested applied limit : Nat) : State :=
  let s1 := s.event 0x0001 tile quantity requested applied limit
  { s1 with tel := { s1.tel with clampCount := s1.tel.clampCount + 1 } }

/-- The new state of a clamp on a quantity, and what it records: when it begins, when its limit changes, and 100 ms after
the last change of its applied value (R109) (DEDUCED, log entry 65). -/
def State.clampTo (s : State) (old : Option Clamp) (on : Bool) (tile quantity requested value limit : Nat) :
    State × Option Clamp :=
  if !on then (s, none)
  else
    let begun : Clamp := { limit := limit, reported := value, value := value, changedUs := s.clk.nowUs }
    match old with
    | none => (s.clamped tile quantity requested value limit, some begun)
    | some c =>
      if c.limit ≠ limit then (s.clamped tile quantity requested value limit, some begun)
      else if c.value ≠ value then (s, some { c with value := value, changedUs := s.clk.nowUs })
      else if c.reported ≠ value && decide (c.changedUs + 100000 ≤ s.clk.nowUs) then
        (s.clamped tile quantity requested value limit, some { c with reported := value })
      else (s, some c)

/-- R108: the clamp of MODULE_POWER. -/
def State.clampModule (s : State) : State :=
  let r := s.clampTo s.tel.clampPower (decide (s.appliedCap < s.tel.powerCap)) 0xFF 3 s.tel.powerCap s.appliedCap limCap
  { r.1 with tel := { r.1.tel with clampPower := r.2 } }

/-- Clamps of a tile after its resolution (R108, R110); a paced tile's rail is set by its floor. -/
def State.clampTile (s : State) (t : Nat) (x : Sensors) (paced : Bool) (lim : Nat) : State :=
  match s.tiles[t]? with
  | none => s
  | some y =>
    let g := y.gov
    let p := g.policy
    let m := s.clampTo g.clampM (decide (850 < g.vFloor + p.marginAdd)) t 4 p.marginAdd (850 - g.vFloor) limRailMax
    let v := m.1.clampTo g.clampV (p.mode == 0 && p.target != g.applied) t 1 p.target g.applied (if paced then limFloor else lim)
    let rate := senseBeat x g.applied * g.pace / 64
    let b := v.1.clampTo g.clampB (p.mode == 1 && decide (rate < p.target)) t 2 p.target rate lim
    b.1.onGov t fun h => { h with clampM := m.2, clampV := v.2, clampB := b.2 }

/-! ### OPERATING_POLICY replies -/

/-- Eight applied rails as two words: 0 for a tile that is unnamed or not powered (R102). -/
def State.railWord (s : State) (mask lo : Nat) : Nat :=
  leNat ((List.range 4).flatMap fun i =>
    toLE 2 (if bitOf mask (lo + i) && s.tileOn (lo + i) then ((s.tiles[lo + i]?).map (·.gov.rail)).getD 0 else 0))

/-- Named tiles with a clamp of their policy in force (R102). -/
def State.clampMask (s : State) (mask : Nat) : Nat :=
  ((maskList 8 mask).filter fun t => (s.tiles[t]?).any fun x =>
    x.gov.clampV.isSome || x.gov.clampB.isSome || x.gov.clampM.isSome).foldl (fun a t => a + 2 ^ t) 0

/-- Whether every named tile that is powered has its applied rail (governor timing table, t_policy). -/
def State.policyDone (s : State) (mask : Nat) : Bool :=
  (maskList 8 mask).all fun t => !s.tileOn t || (s.tiles[t]?).any fun x => x.gov.rail == x.gov.applied

/-- Replies to every OPERATING_POLICY whose tiles have reached their applied rails. -/
def State.policyReplies (s : State) : State :=
  s.host.running.foldl (fun st c =>
    match c.wait with
    | .policy m =>
      let mask := m.toNat
      if st.policyDone mask then
        let k := st.clampMask mask
        st.finish c (if k = 0 then stOK else stClamped) k (st.railWord mask 0) (st.railWord mask 4)
      else st
    | _ => st) s

/-! ### Ageing (R111 to R113, R119) -/

/-- R111: 10 mV plus 25 % of the rise of V_RATED, rounded up to 5 mV. -/
def ageGuard (vRated vInit : Nat) : Nat := 10 + ceilDiv (vRated - vInit) 20 * 5

/-- A tile's entry of the ageing ledger: hourly for 90 days, one a day after that. -/
def State.ageEntry (s : State) (t v : Nat) : State :=
  let all := v :: s.tel.ageing.getD t []
  let old := if s.tel.ageingCount.getD t 0 % 24 = 0 then all.drop 2160 else []
  { s with tel := { s.tel with
      ageing := modAt s.tel.ageing t fun _ => all.take 2160, ageingDaily := modAt s.tel.ageingDaily t (old ++ ·)
      ageingCount := modAt s.tel.ageingCount t (· + 1) } }

/-- The hourly entry of one tile (R111 to R113) (DESIGN CHOICE, log entry 12). -/
def State.ageTile (s : State) (t v : Nat) : State :=
  match s.tiles[t]? with
  | none => s
  | some y =>
    let g := ageGuard v (Config.vRatedInit t)
    let ledger := max y.gov.guardLedger g
    let guard := if s.tel.ledgerOk then ledger else max y.gov.guard g
    let warn := decide (820 ≤ v + guard) && !y.gov.warned
    let eol := decide (850 < v + guard) && !y.gov.eol
    let s1 := (s.ageEntry t v).onGov t fun h => { h with vRated := v, guardLedger := ledger, guard := guard, ageDue := false,
                                                         warned := h.warned || warn, eol := h.eol || eol }
    let s2 := if warn then (s1.event 0x0003 t 0 0 0 0).logged else s1
    if eol then (s2.event 0x0004 t 0 0 0 0).logged else s2

/-- Whether a tile's sentinels can be read: it is powered and has its floor. -/
def State.tileRuns (s : State) (t : Nat) : Bool := s.tileOn t && (s.tiles[t]?).any fun y => y.gov.floorSet

/-- AGEING_MEASUREMENT: every tile's entry and guard. A tile that is gated or stopped is measured in its first loop after it
resumes (R119) (DEDUCED, log entry 121). -/
def ageingMeasurementStep (vRated : List Nat) (readable : Bool) (s : State) : State :=
  vRated.zipIdx.foldl (fun st x =>
    if st.tileRuns x.2 then st.ageTile x.2 x.1 else st.onGov x.2 fun h => { h with ageDue := true })
    { s with tel := { s.tel with ledgerOk := readable } }
def execAgeingMeasurement (vRated : List Nat) (readable : Bool) (s : State) : Host.Outcome State Fault Refusal :=
  .next (ageingMeasurementStep vRated readable s)

/-- A measurement that fell due while the tile could not be measured (R119). -/
def State.ageHeld (s : State) (t : Nat) (x : Sensors) : State :=
  if (s.tiles[t]?).any fun y => y.gov.ageDue then s.ageTile t x.vRated else s

/-! ### The loop (R92 to R110) -/

/-- Running tiles: powered, with a floor, not fenced. -/
def State.runningTiles (s : State) : List (Nat × Gov) :=
  (List.range 8).filterMap fun t =>
    if s.tileOn t && !s.tileFenced t then
      (s.tiles[t]?).bind fun x => if x.gov.floorSet then some (t, x.gov) else none
    else none

/-- The step of R99, once in a round of the tiles' loops: the ceiling of the running tile with the highest rail falls, or
that of the lowest rail rises, lowest index first (DEDUCED, log entry 46). -/
def State.capRound (s : State) (inputMw : Nat) : State :=
  let cap := s.appliedCap * 1000
  if cap < inputMw then
    let best := (s.runningTiles.filter fun x => decide (550 < x.2.vCap)).foldl (fun (a : Option (Nat × Gov)) x =>
      match a with
      | some b => if b.2.rail < x.2.rail then some x else a
      | none => some x) none
    match best with
    | some b => s.onGov b.1 fun g => { g with vCap := lowerCeil g.vCap g.rail }
    | none => s
  else if inputMw * 100 ≤ cap * 97 then
    let best := (s.runningTiles.filter fun x => decide (x.2.vCap < 850)).foldl (fun (a : Option (Nat × Gov)) x =>
      match a with
      | some b => if x.2.rail < b.2.rail then some x else a
      | none => some x) none
    match best with
    | some b => s.onGov b.1 fun g => { g with vCap := raiseCeil g.vCap }
    | none => s
  else s

/-- Marks a tile's loop in the present round; a tile seen again begins the next round (R99) (DEDUCED, log entry 46). -/
def State.roundOf (s : State) (t inputMw : Nat) : State :=
  if bitOf s.tel.loopSeen.toNat t then
    let s1 := s.capRound inputMw
    { s1 with tel := { s1.tel with loopSeen := BitVec.ofNat 8 (2 ^ t) } }
  else { s with tel := { s.tel with loopSeen := s.tel.loopSeen ||| BitVec.ofNat 8 (2 ^ t) } }

/-- Whether the electrical limit binds: 420 A, 4,000 W, or 87.0 A of main input below 46.0 V (R98; 17 R588). -/
def senseOver (x : Sensors) : Bool :=
  decide (420000 < x.currentMa) || decide (4000000 < x.inputMw) ||
    (decide (x.inputMv < 46000) && decide (87000 * x.inputMv < x.inputMw * 1000))

/-- Thermal and electrical ceilings of a tile (R97, R98, R116) (DEDUCED, log entry 66). -/
def State.ceilings (s : State) (t : Nat) (x : Sensors) : State :=
  let s1 := match s.tiles[t]? with
    | some y => if decide (1000 < x.tj) && !y.gov.thermalOn then s.event 0x0006 t 0 0 0 0 else s
    | none => s
  s1.onGov t fun g =>
    { g with thermalOn := decide (1000 < x.tj)
             vThermal := if 1000 < x.tj then lowerCeil g.vThermal g.rail
                         else if x.tj ≤ 970 then raiseCeil g.vThermal else g.vThermal
             vElectrical := if senseOver x then lowerCeil g.vElectrical g.rail else raiseCeil g.vElectrical }

/-- The limit that sets a ceiling, in the order of R110. -/
def Gov.ceilLimit (g : Gov) : Nat :=
  if g.ceiling = 850 then limRailMax
  else if g.vThermal = g.ceiling then limThermal
  else if g.vElectrical = g.ceiling then limElectrical
  else limCap

/-- Change of pace of a limit: it binds, it has released, or neither (R100). -/
def State.paceStep (s : State) (g : Gov) (x : Sensors) (lim : Nat) : Nat :=
  let cap := s.appliedCap * 1000
  let binds := if lim = limThermal then decide (1000 < x.tj)
               else if lim = limElectrical then senseOver x else decide (cap < x.inputMw)
  let free := if lim = limThermal then decide (x.tj ≤ 970)
              else if lim = limElectrical then !(senseOver x) else decide (x.inputMw * 100 ≤ cap * 97)
  if binds then max 1 (g.pace - 1) else if free then min 64 (g.pace + 1) else g.pace

/-- R110: the limit that governs a rail. A paced tile's is the limit that paces it (DEDUCED, log entry 66). -/
def Gov.railLimit (g : Gov) (x : Sensors) (held : Bool) (req applied : Nat) : Nat :=
  if held then limFloor
  else if g.ceiling < g.effFloor then g.ceilLimit
  else if applied = req then (if g.policy.mode ≠ 0 ∧ senseBeat x req < g.policy.target then limRailMax else limNone)
  else if applied = g.effFloor then limFloor
  else g.ceilLimit

/-- R106, R100, R95: the resolution of a tile, and the step of its rail where it moves. A tile that is fenced is held at 850 mV
(R107). -/
def State.resolve (s : State) (t : Nat) (x : Sensors) (moves : Bool) : State :=
  match s.tiles[t]? with
  | none => s
  | some y =>
    let g0 := { y.gov with ceiling := min (min y.gov.vThermal y.gov.vElectrical) (min y.gov.vCap 850) }
    let eff := g0.effFloor
    let req := if g0.policy.mode = 0 then g0.policy.target else senseRail x g0.policy.target
    let applied := if g0.floorFence then 850 else max eff (min req g0.ceiling)
    let paced := decide (g0.ceiling < eff)
    let lim := g0.railLimit x g0.floorFence req applied
    let s1 := s.onGov t fun _ =>
      { g0 with applied := applied, limit := lim, rail := if moves then railStep g0.rail applied else g0.rail
                pace := if paced then s.paceStep g0 x lim else 64 }
    s1.clampTile t x paced lim

/-- A job running on a tile stops when the tile is fenced (05 R197; 16 R584) (DESIGN CHOICE, log entry 120). -/
def State.fenceJobs (s : State) (t : Nat) : State :=
  (s.work.jobs.filter fun j => (j.st == .running || j.st == .pausing) && (s.tilesOfJob j).contains t).foldl
    (fun st j => (st.failJob j.handle stNoResource true).settle) s

/-- R107: the tile is held at 850 mV with issue stopped, and fenced. -/
def State.floorExceeded (s : State) (t : Nat) : State :=
  match s.tiles[t]? with
  | some y =>
    if y.gov.floorFence then s
    else ((s.onGov t fun g => { g with floorFence := true, applied := 850 }).event 0x0005 t 0 0 0 0).fenceJobs t
  | none => s

/-- R96: issue stops and the rail rises four steps. -/
def State.emergencyOn (s : State) (t : Nat) : State :=
  s.onGov t fun g => { g with emergency := true, rail := min 850 (g.rail + 20) }

/-- R96: issue resumes, the sentinel floor is held at the new rail, SLACK_EMERGENCY is recorded. -/
def State.emergencyOff (s : State) (t : Nat) : State :=
  (s.onGov t fun g => { g with emergency := false, heldFloor := some g.rail, emergCount := g.emergCount + 1, emergTimes := s.clk.nowUs :: g.emergTimes }).event 0x0002 t 0 0 0 0

/-- GOVERNOR_LOOP of tile `t`: limits, emergency, floor, resolution, clamps and replies. The loop that finds an emergency moves
the rail by its four steps alone (R95, R96). -/
def governorLoopStep (t : Nat) (x : Sensors) (s : State) : State :=
  match s.tiles[t]? with
  | none => s
  | some y =>
    if !s.tileOn t || !y.gov.floorSet then s
    else
      let s1 := (s.ageHeld t x).onGov t fun g =>
        { g with sentinelFloor := x.floorMv, tj := x.tj, minSlack := x.slack, powerMw := x.powerMw, beatMhz := senseBeat x g.rail }
      let s2 : State := { s1 with tel := { s1.tel with inputMw := x.inputMw, inputMv := x.inputMv, capLive := s.tel.carrierCap } }
      let s3 := (s2.roundOf t x.inputMw).ceilings t x
      let begins := !y.gov.emergency && decide (x.slack < 16)
      let s4 := if begins then s3.emergencyOn t
                else if y.gov.emergency && decide (32 ≤ x.slack) then s3.emergencyOff t else s3
      let s5 := if (s4.tiles[t]?).any fun z => decide (850 < z.gov.vFloor) then s4.floorExceeded t else s4
      ((s5.resolve t x !begins).clampModule).policyReplies
def execGovernorLoop (t : Nat) (sense : Sensors) (s : State) : Host.Outcome State Fault Refusal :=
  .next (governorLoopStep t sense s)

/-- SLACK_EMERGENCY: a sentinel of a tile that has its floor reports less than 4 %. -/
def slackEmergencyStep (t : Nat) (s : State) : State :=
  match s.tiles[t]? with
  | some y => if s.tileOn t && y.gov.floorSet && !y.gov.emergency then s.emergencyOn t else s
  | none => s
def execSlackEmergency (t : Nat) (s : State) : Host.Outcome State Fault Refusal := .next (slackEmergencyStep t s)

/-- FLOOR_HOLD_EXPIRY. -/
def floorHoldExpiryStep (t : Nat) (s : State) : State := s.onGov t fun g => { g with heldFloor := none }
def execFloorHoldExpiry (t : Nat) (s : State) : Host.Outcome State Fault Refusal := .next (floorHoldExpiryStep t s)

/-- FLOOR_MEASURE: the first margin floor of a powered tile is set; a fence of FLOOR_EXCEEDED ends when the new floor is at
or below 850 mV, and is made again otherwise (R94, R107). -/
def floorMeasureStep (t floorMv : Nat) (s : State) : State :=
  match s.tiles[t]? with
  | none => s
  | some y =>
    if !s.tileOn t || y.gov.floorSet then s
    else
      let s1 := s.onGov t fun g => { g with sentinelFloor := floorMv, floorSet := true, floorFence := false }
      if (s1.tiles[t]?).any fun z => decide (850 < z.gov.vFloor) then s1.floorExceeded t else s1
def execFloorMeasure (t floorMv : Nat) (s : State) : Host.Outcome State Fault Refusal := .next (floorMeasureStep t floorMv s)

/-! ### Telemetry (R114, R115, R117) -/

/-- Two's complement of `n` bytes. -/
def intLE (n : Nat) (v : Int) : Bytes := toLE n (v % (2 ^ (8 * n) : Nat)).toNat

/-- Tile record. -/
def State.tileRecord (s : State) (t : Nat) : Bytes :=
  match s.tiles[t]? with
  | none => zeros 64
  | some x =>
    let g := x.gov
    let on := s.tileOn t
    let st := if !on then 0 else if s.tileFenced t then 2 else if 850 < g.vRated + g.guard then 3 else 1
    toLE 1 st ++ toLE 1 g.limit ++ toLE 2 (if on then g.rail else 0) ++ toLE 2 g.vFloor ++ toLE 2 g.effFloor ++
      toLE 2 g.ceiling ++ toLE 2 g.pace ++ toLE 4 g.beatMhz ++ intLE 2 g.tj ++ toLE 2 g.minSlack ++ toLE 4 g.powerMw ++
      toLE 2 g.vRated ++ toLE 2 (Config.vRatedInit t) ++ toLE 2 g.guard ++ toLE 2 0 ++ toLE 4 g.emergCount ++
      toLE 4 (sat32 g.regEccCe) ++ zeros 24

/-- Event record. -/
def Event.bytes (e : Event) : Bytes :=
  toLE 8 e.timeMs ++ toLE 2 e.code ++ toLE 1 e.tile ++ toLE 1 e.quantity ++ toLE 4 e.requested.toNat ++
    toLE 4 e.applied.toNat ++ toLE 1 e.limit ++ zeros 3 ++ toLE 8 e.serial

/-- The telemetry page with sequence number `n`. -/
def State.telemetry (s : State) (n : Nat) : Bytes :=
  toLE 8 n ++ toLE 8 s.timeMs ++ toLE 4 s.tel.inputMw ++ toLE 4 s.tel.inputMv ++ toLE 4 s.appliedCap ++
    toLE 4 s.tel.carrierCap ++ toLE 8 s.tel.clampCount ++ toLE 8 s.tel.eventSerial ++ zeros 208 ++
    ((List.range 8).flatMap fun t => s.tileRecord t) ++
    padTo 1024 (s.tel.events.flatMap Event.bytes) ++ zeros 2296 ++ toLE 8 n

/-- R115: the page as a tenant with these tiles sees it. -/
def pageFor (tiles : Nat) (page : Bytes) : Bytes :=
  page.take 0x100 ++
    ((List.range 8).flatMap fun t => if bitOf tiles t then fldBytes page (0x100 + 64 * t) 64 else zeros 64) ++
    ((List.range 32).flatMap fun e =>
      let r := fldBytes page (0x300 + 32 * e) 32
      if fld r 10 1 = 0xFF || bitOf tiles (fld r 10 1) then r else zeros 32) ++
    page.drop 0x700

/-- R114: copies the page to a tenant. -/
def State.copyPage (s : State) (tn : Tenant) (dest : Nat) : State :=
  s.storeSoon 5 dest (pageFor tn.tiles.toNat (padTo 4096 s.tel.telemPage))

/-- TELEMETRY_PUBLISH: the page, the periodic copies and SB_TELEM; ALERT_N is released (R114, R117; 19 R643). Stage 2 must
run. -/
def telemetryPublishStep (s : State) : State :=
  if s.pow.stage ≠ 2 || s.pow.episode = some true then s
  else
    let n := s.tel.telemSeq + 1
    let tj := s.tiles.foldl (fun (a : Int) x => max a x.gov.tj) (((s.tiles[0]?).map (·.gov.tj)).getD 0)
    let s1 : State := { s with tel := { s.tel with
        telemSeq := n, telemPage := s.telemetry n, alertN := true
        sbTelem := BitVec.ofNat 32 (leNat (intLE 2 tj) + s.tel.inputMw / 1000 % 65536 * 65536) } }
    s1.host.tenants.foldl (fun st tn => match tn.telemDest with
      | some d => st.copyPage tn d
      | none => st) s1
def execTelemetryPublish (s : State) : Host.Outcome State Fault Refusal := .next (telemetryPublishStep s)

/-! ### Commands -/

/-- Whether a tenant holds all eight tiles. -/
def State.holdsAll (s : State) (tn : Nat) : Bool := (s.tenant? tn).any fun x => x.tiles == 0xFF
/-- Tile mask of a tenant. -/
def State.tilesOf (s : State) (tn : Nat) : Nat := ((s.tenant? tn).map (·.tiles.toNat)).getD 0
/-- Whether every bit of a mask is a tile of a tenant. -/
def State.holdsMask (s : State) (tn mask : Nat) : Bool := (maskList 8 mask).all fun t => bitOf (s.tilesOf tn) t

/-- POWER_CAP (DEDUCED, log entry 67). -/
def powerCapStep (att ring : Nat) (s : State) : State :=
  s.startCmd 0x0701 .inline att ring fun c s =>
    let w := c.f 16 4
    if !c.z 20 44 || !(w == 0 || (decide (600 ≤ w) && decide (w ≤ 4000))) then (s, .st stBadParam)
    else if !s.holdsAll c.tenant then (s, .st stDenied)
    else
      let s1 := State.clampModule { s with tel := { s.tel with powerCap := if w = 0 then 4000 else w } }
      (s1, .done (if s1.appliedCap < w then stClamped else stOK) s1.appliedCap 0 0)
def execPowerCap (att ring : Nat) (s : State) : Host.Outcome State Fault Refusal := .next (powerCapStep att ring s)

/-- OPERATING_POLICY: the policy of each named tile is set; the reply waits until they have their applied rails
(DEDUCED, log entry 67). -/
def operatingPolicyStep (att ring : Nat) (s : State) : State :=
  s.startCmd 0x0703 .inline att ring fun c s =>
    let mask := c.f 16 1
    let mode := c.f 17 1
    let m := c.f 18 2
    let g := c.f 20 4
    let ok := if mode = 0 then decide (550 ≤ g ∧ g ≤ 850 ∧ g % 5 = 0) else decide (mode = 1 ∧ 500 ≤ g ∧ g ≤ 3200)
    if !c.z 24 40 || !ok || 100 < m || m % 5 ≠ 0 then (s, .st stBadParam)
    else if !s.holdsMask c.tenant mask then (s, .st stDenied)
    else
      let p : Policy := { mode := mode, marginAdd := m, target := g }
      let s1 := (maskList 8 mask).foldl (fun st t => st.onGov t fun h => { h with policy := p, applied := 0 }) s
      if s1.policyDone mask then (s1, .done stOK 0 0 0) else (s1, .wait (.policy (BitVec.ofNat 8 mask)))
def execOperatingPolicy (att ring : Nat) (s : State) : Host.Outcome State Fault Refusal := .next (operatingPolicyStep att ring s)

/-- TELEMETRY_READ (DEDUCED, log entry 67). -/
def telemetryReadStep (att ring : Nat) (s : State) : State :=
  s.startCmd 0x0006 .inline att ring fun c s =>
    let dest := c.f 16 8
    let mode := c.f 24 1
    match s.tenant? c.tenant with
    | none => (s, .st stDenied)
    | some tn =>
      if !c.z 25 39 || 2 < mode || (mode ≠ 2 && dest % 4096 ≠ 0) then (s, .st stBadParam)
      else if mode = 2 then (s.onTenant tn.id fun x => { x with telemDest := none }, .done stOK 0 0 0)
      else if hbmEnd < dest + 4096 || !inPart tn false true dest 4096 then (s, .st stDenied)
      else if hbmAny s.groupOff dest 4096 then (s, .st stNoResource)
      else
        let s1 := s.copyPage tn dest
        (if mode = 1 then s1.onTenant tn.id fun x => { x with telemDest := some dest } else s1, .done stOK s.tel.telemSeq 0 0)
def execTelemetryRead (att ring : Nat) (s : State) : Host.Outcome State Fault Refusal := .next (telemetryReadStep att ring s)

end Sys2Proof.Machine
end

