-- ==== Sys2Proof/Machine/CollStart.lean ====
section
/-! DEFINITION. Issuing a collective (12): the checks of R426, the source data in the wire format, the streams a rank
sends and receives for each operation, and the start of an instance (R446, R452 to R460). -/

namespace Sys2Proof.Machine

/-- The COLLECTIVE parameters, byte 0 of `b` being packet offset 16 (12 COLLECTIVE parameters). -/
structure CollPar where
  gid : Nat
  op : Nat
  wire : Nat
  sfmt : Nat
  dfmt : Nat
  src : Nat
  dst : Nat
  count : Nat
  aux : Nat
  arg : Nat
  deriving DecidableEq, Repr

/-- Parameters read from their 48 bytes (DEDUCED, log entry 78). -/
def collPar (b : Bytes) : CollPar :=
  { gid := fld b 0 2, op := fld b 2 1, wire := fld b 3 1, sfmt := fld b 4 1, dfmt := fld b 5 1, src := fld b 8 8,
    dst := fld b 16 8, count := fld b 24 8, aux := fld b 32 8, arg := fld b 40 4 }

/-- Whether an operation and its formats are in the operations table (DEDUCED, log entry 78). -/
def CollPar.formsOk (c : CollPar) : Bool :=
  let wide := fun x => x == 3 || x == 4
  let any := fun x => wide x || x == 1
  match c.op with
  | 1 => wide c.wire && wide c.sfmt && wide c.dfmt
  | 2 => any c.wire && any c.sfmt && wide c.dfmt
  | 3 => wide c.wire && wide c.sfmt && wide c.dfmt
  | 4 => decide (c.sfmt ≤ 5) && c.wire == c.sfmt && c.dfmt == c.sfmt
  | 5 => decide (c.sfmt ≤ 5) && c.wire == c.sfmt && c.dfmt == c.sfmt
  | 6 => decide (c.sfmt ≤ 5) && c.wire == c.sfmt && c.dfmt == c.sfmt
  | 7 => decide (c.sfmt ≤ 5) && c.wire == c.sfmt && c.dfmt == c.sfmt
  | 8 => c.wire == 5
  | 9 => true
  | _ => false

/-- Check 1 of R426, beyond the group itself. -/
def CollPar.ok (c : CollPar) (b : Bytes) (n : Nat) : Bool :=
  c.formsOk && decide (1 ≤ c.count ∧ c.count ≤ if c.op = 5 then 2 ^ 20 else 2 ^ 40) && fld b 6 2 == 0 && fld b 44 4 == 0 &&
    (match c.op with
      | 4 => decide (c.arg < n)
      | 6 => true
      | 7 => true
      | _ => c.arg == 0)

/-- The move table (12 R457): source rank, destination rank, source offset, destination offset, length
(DESIGN CHOICE, log entry 80). -/
def State.moveTable (s : State) (a k : Nat) : List (Nat × Nat × Nat × Nat × Nat) :=
  (List.range k).map fun i =>
    let e := a + 32 * i
    (s.numAt e 2, s.numAt (e + 2) 2, s.numAt (e + 8) 8, s.numAt (e + 16) 8, s.numAt (e + 24) 8)

/-- The collective of checked parameters, not yet started. -/
def CollPar.run (c : CollPar) (rid tenant vc : Nat) (who : CollSrc) (region : Option Nat)
    (table : List (Nat × Nat × Nat × Nat × Nat)) (now : Nat) : CollRun :=
  { rid := rid, gid := c.gid, vc := vc, op := c.op, wire := c.wire, sfmt := c.sfmt, dfmt := c.dfmt, src := c.src, dst := c.dst,
    count := c.count, aux := c.aux, arg := c.arg, tenant := tenant, who := who, started := false, region := region,
    table := table, adders := [], out := [], recv := [], ord := 0, halted := false, landing := [], toLand := [], nonfinite := 0, faults := 0,
    dropped := 0, progressUs := now }

/-- Send counts of an EXCHANGE (R454). -/
def State.sendCounts (s : State) (r : CollRun) (n : Nat) : List Nat := (List.range n).map fun i => s.numAt (r.aux + 4 * i) 4

/-- Ranges the rank reads. -/
def CollRun.reads (r : CollRun) (g : Group) : List (Nat × Nat) :=
  let n := g.members.length
  let sh := (r.shard n g.rank).2.1
  let whole := (r.src, fmtBytes r.sfmt r.count)
  match r.op with
  | 2 => (r.src, fmtBytes r.sfmt sh) :: (if r.sfmt = 1 then [(r.aux, ceilDiv sh 32)] else [])
  | 4 => if g.rank = r.arg then [whole] else []
  | 5 => (r.aux, 32 * r.table.length) :: (r.table.filter (fun e => e.1 == g.rank)).map fun e => (r.src + e.2.2.1, e.2.2.2.2)
  | 7 => [whole, (r.aux, 4 * n)]
  | 8 => [(r.src, 64 * r.count)]
  | 9 => match r.who with
    | .sum _ => []
    | _ => [(r.src, 8 * r.count)]
  | _ => [whole]
/-- Ranges the rank writes. -/
def CollRun.writes (r : CollRun) (g : Group) : List (Nat × Nat) :=
  let n := g.members.length
  let sh := (r.shard n g.rank).2.1
  match r.op with
  | 1 => [(r.dst, fmtBytes r.dfmt sh)]
  | 5 => (r.table.filter fun e => e.2.1 == g.rank).map fun e => (r.dst + e.2.2.2.1, e.2.2.2.2)
  | 7 => [(r.dst, fmtBytes r.sfmt (n * r.arg)), (r.aux + 4 * n, 4 * n)]
  | 8 => [(r.dst, 64 * r.count)]
  | 9 => match r.who with
    | .sum _ => []
    | _ => [(r.dst, 8 * r.count)]
  | _ => [(r.dst, fmtBytes r.dfmt r.count)]

/-- Ranges whose place is checked as a source's: those the rank reads, and the source of a BROADCAST on every member (R426). -/
def CollRun.sources (r : CollRun) (g : Group) : List (Nat × Nat) :=
  if r.op = 4 then [(r.src, fmtBytes r.sfmt r.count)] else r.reads g

/-- Checks 2 and 3 of R426, behind check 1 of a move table's ranks, and what R457 and R459 reject before sending
(DEDUCED, log entry 82). -/
def State.collStatus (s : State) (r : CollRun) (g : Group) : Nat :=
  let rd := r.sources g
  let wr := r.writes g
  let inside_ := fun (w : Bool) (l : List (Nat × Nat)) =>
    (s.tenant? r.tenant).any fun t => l.all fun x => inPart t false w x.1 x.2
  let n := g.members.length
  let lapped := fun (a b : List (Nat × Nat)) => a.any fun x => b.any fun y => overlaps x.1 x.2 y.1 y.2
  let selfLap := wr.zipIdx.any fun x => wr.zipIdx.any fun y => decide (x.2 < y.2) && overlaps x.1.1 x.1.2 y.1.1 y.1.2
  if r.op = 5 && (r.table.any fun e => !decide (e.1 < n ∧ e.2.1 < n)) then stBadParam
  else if !inside_ false rd || !inside_ true wr then stDenied
  else if lapped rd wr then stBadParam
  else if r.op ≠ 5 && r.sfmt = 1 && r.count % 32 ≠ 0 then stBadParam
  else if r.op = 6 && !decide (1 ≤ r.arg ∧ r.arg < n) then stBadParam
  else if r.op = 5 && selfLap then stBadParam
  else if r.op = 7 && decide (r.count < (s.sendCounts r n).sum) then stBadParam
  else if (r.region.any fun k => r.table.any fun e => decide (k < e.2.2.1 + e.2.2.2.2) || decide (k < e.2.2.2.1 + e.2.2.2.2)) then stBadParam
  else stOK

/-! ### Source data in the wire format (R429, R436, R438, R452) -/

/-- Values of `n` elements at `a` in a format; S8x elements with their scale plane at `aux`. -/
def State.valsAt (s : State) (fmt a aux n : Nat) : List Val :=
  match fmtOf fmt with
  | none => []
  | some f =>
    let b := s.bytesAt a (fmtBytes fmt n)
    (List.range n).map fun i =>
      if f = .s8x then scaled .s8x (fld b i 1) (s.numAt (aux + i / 32) 1) else decodeF f (codeAt f b i)

/-- `n` elements from `a` on in the wire format, padded with +0 to `total`. -/
def State.wireData (s : State) (r : CollRun) (a aux n total : Nat) : Bytes :=
  let e := wireBytes r.wire
  let b := if r.sfmt = 1 then
      (match fmtOf r.wire with
        | some w => packCodes w ((s.valsAt 1 a aux n).map fun v => (conv w .rne 0 false v).code)
        | none => [])
    else recodeAll r.sfmt r.wire (s.bytesAt a (fmtBytes r.sfmt n)) n
  padTo (e * total) b

/-- Blocks of an ALL_GATHER in S8x: sent as they are, or converted with current scaling under RNE (R452). -/
def State.wireBlocks (s : State) (r : CollRun) (a aux n : Nat) : List (Bytes × Nat) :=
  (List.range (ceilDiv n 32)).map fun i =>
    if r.sfmt = 1 then (padTo 32 (s.bytesAt (a + 32 * i) (min 32 (n - 32 * i))), s.numAt (aux + i) 1)
    else
      let k := min 32 (n - 32 * i)
      let vs := (s.valsAt r.sfmt (a + fmtBytes r.sfmt (32 * i)) 0 k).map some ++ List.replicate (32 - k) (some (Val.fin false 0 0))
      let o := blockConv .s8x .rne false true false 0 vs (List.replicate 32 0)
      (o.elems.map fun x => BitVec.ofNat 8 x.code, o.e8)

/-! ### Streams of a rank -/

/-- The leaf's stream of a shard to the first adder above it, or to the owner where there is none (R435). -/
def CollRun.leaf (r : CollRun) (g : Group) (sh : Nat) (b : Bytes) : List Pkt :=
  match above g.members.length g.rank (g.rank + 1) with
  | some (L, lo, hi) => r.stream 0x10 (g.members.getD (placeRank g.low sh lo hi) 0) L sh (wirePieces b)
  | none => r.stream 0x10 (g.members.getD g.rank 0) 0xF sh (wirePieces b)

/-- Shards that hold elements. -/
def CollRun.shards (r : CollRun) (n : Nat) : List Nat := (List.range n).filter fun i => (r.shard n i).2.2 != 0

/-- A rank's leaf data of a shard (DEDUCED, log entry 77). -/
def State.leafData (s : State) (r : CollRun) (g : Group) (sh : Nat) : Bytes :=
  let x := r.shard g.members.length sh
  match r.op, r.who with
  | 8, _ =>
    let b := s.bytesAt r.src (64 * r.count)
    if g.members.length = 1 then
      (List.range r.count).flatMap fun i => let e := fldBytes b (64 * i) 64; e.take 4 ++ toLE 2 0xFFFE ++ toLE 2 1 ++ e.drop 8
    else b
  | 9, .sum h => toLE 8 (((s.job? h).map (·.stepCount)).getD 0)
  | 9, _ => s.bytesAt r.src (8 * r.count)
  | _, _ => s.wireData r (r.src + fmtBytes r.sfmt x.1) 0 x.2.1 x.2.2

/-- What a rank sends. A PERMUTE sends its entries in table order: a packet follows the entry that completes it
(R436, R457). The stream of an EXCHANGE begins with the chunk's full count (R452 to R457) (DEDUCED, log entry 77). -/
def State.collSends (s : State) (r : CollRun) (g : Group) : List Pkt :=
  let n := g.members.length
  let all := fun (ps : List Bytes) => g.members.flatMap fun m => r.stream 0x11 m 0xF g.rank ps
  let whole := s.bytesAt r.src (fmtBytes r.sfmt r.count)
  match r.op with
  | 2 =>
    let x := r.shard n g.rank
    if x.2.2 = 0 then []
    else if r.wire = 1 then all (blockPieces (x.2.2 + 1) (s.wireBlocks r r.src r.aux x.2.1))
    else all (wirePieces (s.wireData r r.src r.aux x.2.1 x.2.2))
  | 4 => if g.rank = r.arg then all (wirePieces whole) else []
  | 5 =>
    (r.table.zipIdx.filter fun e => e.1.1 == g.rank).flatMap fun e =>
      let d := e.1.2.1
      let l := r.moves g.rank d
      let b := l.flatMap fun x => s.bytesAt (r.src + x.1.2.2.1) x.1.2.2.2.2
      let lo := ((l.filter fun x => decide (x.2 < e.2)).map fun x => x.1.2.2.2.2).sum
      let ps := (r.stream 0x11 (g.members.getD d 0) 0xF g.rank (wirePieces b)).zipIdx.filter fun p =>
        let last := min (512 * (p.2 + 1)) b.length
        decide (lo < last ∧ last ≤ lo + e.1.2.2.2.2)
      ps.map (·.1)
  | 6 => r.stream 0x11 (g.members.getD ((g.rank + r.arg) % n) 0) 0xF g.rank (wirePieces whole)
  | 7 =>
    let cs := s.sendCounts r n
    (List.range n).flatMap fun d =>
      let c := cs.getD d 0
      r.stream 0x11 (g.members.getD d 0) 0xF g.rank (wirePieces (toLE 4 c ++ s.elemsAt r.sfmt r.src ((cs.take d).sum) (min c r.arg)))
  | _ => (r.shards n).flatMap fun sh => r.leaf g sh (s.leafData r g sh)

/-- The deliveries a rank expects. -/
def CollRun.expects (r : CollRun) (g : Group) : List StreamIn :=
  let n := g.members.length
  let mem := fun i => g.members.getD i 0
  let from_ := fun i => newIn (mem i) 0x11 i 0xF
  let root := fun sh => newIn (mem (producer g.low sh 0 n)) 0x10 sh 0xF
  match r.op with
  | 1 => if (r.shard n g.rank).2.2 = 0 then [] else [root g.rank]
  | 2 => (r.shards n).map from_
  | 3 => (if (r.shard n g.rank).2.2 = 0 then [] else [root g.rank]) ++ (r.shards n).map from_
  | 4 => [from_ r.arg]
  | 5 => ((List.range n).filter fun i => (r.moves i g.rank).any fun e => e.1.2.2.2.2 != 0).map from_
  | 6 => [from_ ((g.rank + n - r.arg) % n)]
  | 7 => (List.range n).map from_
  | _ => [root 0]

/-- Whether an operation adds. -/
def CollRun.adds (r : CollRun) : Bool := r.op == 1 || r.op == 3 || r.op == 8 || r.op == 9

/-- Starts an issued collective: fenced paths and dead members end it; a source that cannot be read ends it; groups still
initialising hold it (R446, R464; 10 R338, R339). -/
def State.startColl (s : State) (rid : Nat) : State :=
  match s.coll? rid with
  | none => s
  | some r =>
    match s.group? r.gid with
    | none => s
    | some g =>
      let n := g.members.length
      let adders := if r.adds then (r.shards n).flatMap (addersOf g) else []
      let all := r.reads g ++ r.writes g
      if g.members.any fun m => !s.alive m then s.endColl r stMemberLost
      else if g.doomed.contains r.ord then s.endColl r stResidue
      else if adders.any fun x => s.cas.pathFenced.contains x.lower.src || s.cas.pathFenced.contains x.upper.src then
        (s.residueNotice g r).endColl r stResidue
      else if all.any fun x => hbmAny s.groupOff x.1 x.2 then s.endColl r stNoResource
      else if all.any fun x => hbmAny (fun t => !s.groupReady t) x.1 x.2 then s
      else
        let rd := (r.reads g).foldl (fun (x : State × Bool) e => let y := x.1.load 6 e.1 e.2; (y.1, x.2 && y.2.isSome)) (s, true)
        if !rd.2 then rd.1.endColl r stUncorrectable
        else
          let excess := if r.op = 7 then ((s.sendCounts r n).map fun c => c - r.arg).sum else 0
          let nonzero := fun (l : List ((Nat × Nat × Nat × Nat × Nat) × Nat)) => l.filter fun e => e.1.2.2.2.2 != 0
          (rd.1.onColl rid fun y =>
            { y with
              started := true, adders := adders, out := s.collSends r g, recv := r.expects g, dropped := excess
              landing := if r.op = 5 then (nonzero (r.table.zipIdx.filter fun e => e.1.1 == g.rank)).map (·.2) else []
              toLand := if r.op = 5 then (nonzero (r.table.zipIdx.filter fun e => e.1.2.1 == g.rank)).map (·.2) else []
              progressUs := s.clk.nowUs }).pump

/-- Starts the oldest waiting collective of a channel when fewer than 16 are outstanding on it (R460). -/
def State.startNext (s : State) (vc : Nat) : State :=
  if 16 ≤ (s.cas.colls.filter fun r => r.vc == vc && r.started).length then s
  else match s.cas.colls.find? fun r => r.vc == vc && !r.started with
    | some r => s.startColl r.rid
    | none => s

/-- Puts a collective behind those of its channel, with its number among the instances of its group. -/
def State.addColl (s : State) (r : CollRun) : State :=
  let k := ((s.group? r.gid).map (·.issued)).getD 0
  let s1 := s.onGroup r.gid fun g => { g with issued := g.issued + 1 }
  { s1 with cas := { s1.cas with colls := s1.cas.colls ++ [{ r with ord := k }] } }

/-- Issues a collective of parameters `b`: the checks of R426, then the entry among those outstanding. -/
def State.issueColl (s : State) (b : Bytes) (tenant : Nat) (who : CollSrc) : State × Nat :=
  let c := collPar b
  match s.group? c.gid with
  | none => (s, stBadParam)
  | some g =>
    let n := g.members.length
    if !(s.job? g.job).any (fun j => j.tenant == tenant) || g.st == .creating || !c.ok b n then (s, stBadParam)
    else if g.st == .destroying then (s, stBusy)
    else
      let rd := if c.op = 5 then (if (s.tenant? tenant).any fun t => inPart t false false c.aux (32 * c.count) then s.cmdRead c.aux (32 * c.count) else (s, stDenied))
        else (s, stOK)
      if rd.2 ≠ stOK then rd
      else
        let u := rd.1.fresh
        let r := c.run u.1 tenant g.vc who none (if c.op = 5 then s.moveTable c.aux c.count else []) s.clk.nowUs
        let st := s.collStatus r g
        if st ≠ stOK then (rd.1, st) else (u.2.addColl r, stOK)

end Sys2Proof.Machine
end

