-- ==== Sys2Proof/Machine/Collect.lean ====
section
/-! DEFINITION. Groups and collectives (12): the commands GROUP_CREATE, GROUP_DESTROY, COLLECTIVE and RESHARD, and the
packets GROUP_ANNOUNCE, ABANDON, CDATA, GDATA, CHECK_ACK, RESEND_REQ, LANDED, ARRIVE and RELEASE; COLLECTIVE_START,
COLLECTIVE_STALL and SKIP_COUNT_SUM. -/

namespace Sys2Proof.Machine

/-! ### Packets that have come to the endpoint -/

/-- Takes the first received packet that meets a test and has no earlier packet of its source and channel in front of it
(11 R394, R403). -/
def takeFrom (q : Pkt → Bool) : List Pkt → List Pkt → Option (Pkt × List Pkt)
  | _, [] => none
  | seen, p :: r =>
    if q p && !(seen.any fun x => x.src == p.src && x.vc == p.vc) then some (p, seen ++ r) else takeFrom q (seen ++ [p]) r
/-- The packet and the state without it, its slots free (DESIGN CHOICE, log entry 1). -/
def State.takeRx (s : State) (q : Pkt → Bool) : Option (Pkt × State) :=
  (takeFrom q [] s.fab.rx).map fun x => (x.1, State.freeHeld { s with fab := { s.fab with rx := x.2 } } x.1)

/-- Whether a control packet's reserved fields are zero: `aw` bits of bytes 16 to 21 are named, and the payload has
its length (11 R379, R380). -/
def ctlFieldsOk (p : Pkt) (aw len : Nat) : Bool :=
  p.tag == 0 && p.code == 0 && p.b23 == 0 && p.flagRsv == 0 && decide (p.a.toNat < 2 ^ aw) && p.len == len && p.payload.length == len
/-- Job that a control packet names. -/
def State.jobOfPkt (s : State) (p : Pkt) : Option Job := s.work.jobs.find? fun j => j.jobId == p.j

/-! ### Commands (12 R422 to R426, R459) -/

/-- Whether a list of module IDs is in order: 15 bits each, no two alike, the module's own among them. -/
def State.membersOk (s : State) (l : List Nat) : Bool :=
  l.all (fun m => decide (m < 2 ^ 15)) && decide l.Nodup && l.any fun m => s.fab.modId == some m
/-- Module IDs listed at an address. -/
def State.idsAt (s : State) (a n : Nat) : List Nat := (List.range n).map fun i => s.numAt (a + 2 * i) 2

/-- Creations take up what has already been announced. -/
def State.checkGroups (s : State) : State := s.cas.groups.foldl (fun st g => st.checkGroup g.gid) s

/-- GROUP_CREATE (DEDUCED, log entry 38). -/
def groupCreateStep (att ring : Nat) (s : State) : State :=
  State.checkGroups <| s.startCmd 0x0301 .inline att ring fun c s =>
    let gid := c.f 16 2
    let n := c.f 24 4
    if !c.z 22 2 || !c.z 28 4 || !c.z 40 24 || 4096 ≤ gid || !decide (1 ≤ c.f 18 1 ∧ c.f 18 1 ≤ 4) || 1 < c.f 19 1 ||
        !decide (1 ≤ n ∧ n ≤ 32768) then (s, .st stBadParam)
    else if !(s.tenant? c.tenant).any fun t => inPart t false false (c.f 32 8) (2 * n) then (s, .st stDenied)
    else
      let rd := s.cmdRead (c.f 32 8) (2 * n)
      if rd.2 ≠ stOK then (rd.1, .st rd.2)
      else
        let s := rd.1
        let ids := s.idsAt (c.f 32 8) n
        match s.job? (c.f 20 2) with
        | none => (s, .st stBadParam)
        | some j =>
          let runs := j.st == .running || j.st == .pausing || j.st == .paused
          if (s.group? gid).isSome || j.tenant ≠ c.tenant || !runs || !s.membersOk ids || !ids.all j.members.contains then
            (s, .st stBadParam)
          else if 4096 ≤ s.cas.groups.length then (s, .st stNoResource)
          else
            let d := groupDigest gid (c.f 18 1) (c.f 19 1) j.jobId ids []
            let rank := ids.idxOf (s.fab.modId.getD 0)
            let g : Group :=
              { gid := gid, vc := c.f 18 1, low := c.f 19 1 == 1, job := j.handle, members := ids, rank := rank,
                digest := d, st := .creating, step := false, issued := 0, doomed := [] }
            if n = 1 then (s.newGroup { g with st := .ready } j.jobId, .done stOK rank (fld d 0 8) 0)
            else (s.newGroup g j.jobId, .wait (.groupCreate gid))
def execGroupCreate (att ring : Nat) (s : State) : Host.Outcome State Fault Refusal :=
  .next (groupCreateStep att ring s)

/-- GROUP_DESTROY (R424). -/
def groupDestroyStep (att ring : Nat) (s : State) : State :=
  s.startCmd 0x0302 .inline att ring fun c s =>
    let gid := c.f 16 2
    if !c.z 18 46 || 4096 ≤ gid then (s, .st stBadParam)
    else match s.group? gid with
      | none => (s, .st stBadParam)
      | some g =>
        if g.step || !(s.job? g.job).any fun j => j.tenant == c.tenant then (s, .st stBadParam)
        else if g.st != .ready then (s, .st stBusy)
        else if s.cas.colls.all fun r => r.gid != gid then (s.dropGroup gid, .st stOK)
        else (s.onGroup gid fun x => { x with st := .destroying }, .wait (.groupDestroy gid))
def execGroupDestroy (att ring : Nat) (s : State) : Host.Outcome State Fault Refusal := .next (groupDestroyStep att ring s)

/-- COLLECTIVE. -/
def collectiveStep (att ring : Nat) (s : State) : State :=
  let s1 := s.startCmd 0x0303 .inline att ring fun c s =>
    let x := s.issueColl c.par c.tenant (.command c.uid)
    if x.2 ≠ stOK then (x.1, .st x.2)
    else (x.1, .wait (.collective ((x.1.cas.colls.getLast?.map (·.rid)).getD 0)))
  [1, 2, 3, 4].foldl State.startNext s1
def execCollective (att ring : Nat) (s : State) : Host.Outcome State Fault Refusal := .next (collectiveStep att ring s)

/-- RESHARD: a PERMUTE of byte ranges between two regions (R459). -/
def reshardStep (att ring : Nat) (s : State) : State :=
  let s1 := s.startCmd 0x0304 .inline att ring fun c s =>
    let k := c.f 32 4
    let bytes := c.f 56 8
    let inP := fun w a n => (s.tenant? c.tenant).any fun t => inPart t false w a n
    match s.group? (c.f 16 2) with
    | none => (s, .st stBadParam)
    | some g =>
      if !c.z 18 6 || !c.z 36 4 || !decide (1 ≤ k ∧ k ≤ 2 ^ 20) || g.st == .creating ||
          !(s.job? g.job).any (fun j => j.tenant == c.tenant) then (s, .st stBadParam)
      else if g.st == .destroying then (s, .st stBusy)
      else if !inP false (c.f 24 8) (32 * k) || !inP false (c.f 40 8) bytes || !inP true (c.f 48 8) bytes then (s, .st stDenied)
      else if overlaps (c.f 40 8) bytes (c.f 48 8) bytes then (s, .st stBadParam)
      else
        let rd := s.cmdRead (c.f 24 8) (32 * k)
        if rd.2 ≠ stOK then (rd.1, .st rd.2)
        else
          let u := rd.1.fresh
          let p : CollPar := { gid := g.gid, op := 5, wire := 1, sfmt := 1, dfmt := 1, src := c.f 40 8, dst := c.f 48 8,
                               count := k, aux := c.f 24 8, arg := 0 }
          let r := p.run u.1 c.tenant g.vc (.command c.uid) (some bytes) (s.moveTable (c.f 24 8) k) s.clk.nowUs
          let st := s.collStatus r g
          if st ≠ stOK then (rd.1, .st st) else (u.2.addColl r, .wait (.collective u.1))
  [1, 2, 3, 4].foldl State.startNext s1
def execReshard (att ring : Nat) (s : State) : Host.Outcome State Fault Refusal := .next (reshardStep att ring s)

/-- A waiting collective of a channel starts (R460). -/
def collStartStep (vc : Nat) (s : State) : State := s.startNext vc
def execCollStart (vc : Nat) (s : State) : Host.Outcome State Fault Refusal := .next (collStartStep vc s)

/-- COLLECTIVE_STALL: the collective has made no progress for t_cstall, 10 s; it goes on (R462, R470). -/
def collectiveStallStep (rid : Nat) (s : State) : State :=
  match s.coll? rid with
  | some r => if r.started && decide (r.progressUs + 10000000 ≤ s.clk.nowUs) then s.event 0x0034 0xFF 0 r.gid (s.fab.modId.getD 0) 0 else s
  | none => s
def execCollectiveStall (rid : Nat) (s : State) : Host.Outcome State Fault Refusal := .next (collectiveStallStep rid s)

/-! ### Control packets (11 R379, R380; 12 R423, R465) -/

/-- GROUP_ANNOUNCE: discarded where the module does not hold the group's job (11 R380), else kept until the group's own
creation compares it (R423) (DEDUCED, log entry 37). -/
def groupAnnounceStep (s : State) : State :=
  match s.takeRx fun p => p.ty == 0x28 with
  | none => s
  | some (p, s1) =>
    let gid := p.a.toNat % 2 ^ 12
    if !ctlFieldsOk p 12 16 || (s1.jobOfPkt p).isNone then s1
    else
      let l := s1.cas.announced.filter fun e => !(e.1 == gid && e.2.1 == p.src)
      State.checkGroup { s1 with cas := { s1.cas with announced := l ++ [(gid, p.src, p.payload)] } } gid
def execGroupAnnounce (s : State) : Host.Outcome State Fault Refusal := .next (groupAnnounceStep s)

/-- ABANDON: every outstanding instance of the group ends with MEMBER_LOST (R464, R465). -/
def abandonStep (s : State) : State :=
  match s.takeRx fun p => p.ty == 0x2B with
  | none => s
  | some (p, s1) =>
    let gid := p.a.toNat % 2 ^ 12
    if !ctlFieldsOk p 12 0 || (s1.jobOfPkt p).isNone then s1
    else match s1.group? gid with
      | some g => if g.members.contains p.src then (s1.endColls (fun r => r.gid == gid) stMemberLost).settle else s1
      | none => s1
def execAbandon (s : State) : Host.Outcome State Fault Refusal := .next (abandonStep s)

/-! ### Data packets (R443 to R446, R461) -/

/-- Where a data packet belongs: the collective and its delivery or adder input. -/
inductive CollAt where
  | recv (rid i : Nat)
  | adder (rid i : Nat) (upper : Bool)
  deriving DecidableEq, Repr

/-- Place of a packet in one collective. -/
def CollRun.placeOf (r : CollRun) (p : Pkt) : Option CollAt :=
  let a := r.recv.zipIdx.find? fun x => x.1.mine p
  let b := r.adders.zipIdx.find? fun x => x.1.lower.mine p
  let c := r.adders.zipIdx.find? fun x => x.1.upper.mine p
  match a, b, c with
  | some x, _, _ => some (.recv r.rid x.2)
  | none, some x, _ => some (.adder r.rid x.2 false)
  | none, none, some x => some (.adder r.rid x.2 true)
  | none, none, none => none
/-- Oldest outstanding collective of the packet's group that has its stream (R461). -/
def State.collPlace (s : State) (p : Pkt) : Option CollAt :=
  (s.cas.colls.filter fun r => r.gid == pkGid p && r.started).findSome? fun r => r.placeOf p
/-- The PERMUTE that does not expect a packet (R457). -/
def State.unexpected (s : State) (p : Pkt) : Option CollRun :=
  match s.cas.colls.find? fun r => r.gid == pkGid p && r.started with
  | some r => if r.op == 5 && pkCop p == 5 && p.ty == 0x11 && (r.recv.all fun x => x.src != p.src) then some r else none
  | none => none

/-- Puts a packet to its place and does what it allows. -/
def State.collIn (s : State) (at_ : CollAt) (p : Pkt) (upset : Bool) : State :=
  match at_ with
  | .recv rid i =>
    let s1 := s.onColl rid fun r => { r with recv := modAt r.recv i fun x => x.take p }
    let n := (((s1.coll? rid).bind fun r => r.recv[i]?).map fun x => x.q.length).getD 0
    (s1.drainRecv rid i n).pump
  | .adder rid i up =>
    let s1 := s.onColl rid fun r => { r with adders := modAt r.adders i fun x =>
      if up then { x with upper := x.upper.take p } else { x with lower := x.lower.take p } }
    let n := (((s1.coll? rid).bind fun r => r.adders[i]?).map fun x => x.lower.q.length + x.upper.q.length).getD 0
    (s1.drainAdder rid i upset n).pump

/-- A data packet of one type is taken once its instance has been issued here. -/
def State.collData (s : State) (ty : Nat) (upset : Bool) : State :=
  match s.takeRx fun p => p.ty == ty && ((s.collPlace p).isSome || (s.unexpected p).isSome) with
  | none => s
  | some (p, s1) =>
    match s1.collPlace p with
    | some x => (s1.collIn x p upset).settle
    | none =>
      match s1.unexpected p with
      | some r => (s1.endColl r stBadParam).settle
      | none => s1

/-- CDATA. -/
def cdataStep (upset : Bool) (s : State) : State := s.collData 0x10 upset
def execCdata (upset : Bool) (s : State) : Host.Outcome State Fault Refusal := .next (cdataStep upset s)
/-- GDATA. -/
def gdataStep (s : State) : State := s.collData 0x11 false
def execGdata (s : State) : Host.Outcome State Fault Refusal := .next (gdataStep s)

/-- CHECK_ACK: the oldest kept packet of the stream is freed (R444). -/
def checkAckStep (s : State) : State :=
  match s.takeRx fun p => p.ty == 0x12 with
  | none => s
  | some (p, s1) =>
    (State.pump { s1 with cas := { s1.cas with retain := dropFirst (fun k => sameStream k.pkt p) s1.cas.retain } }).settle
def execCheckAck (s : State) : Host.Outcome State Fault Refusal := .next (checkAckStep s)

/-- What a notice of RESIDUE_FAULT does: the instance it names ends here too, at issue where it has not been issued yet
(R446; DESIGN CHOICE, log entry 19). -/
def State.residueEnd (s : State) (p : Pkt) : State :=
  let k := resVal 16 (p.j.toNat % 2 ^ 48)
  match s.group? (pkGid p) with
  | none => s
  | some g =>
    if !g.members.contains p.src then s
    else if g.issued ≤ k then s.onGroup g.gid fun x => { x with doomed := x.doomed ++ [k] }
    else match s.cas.colls.find? fun r => r.gid == g.gid && r.ord == k with
      | some r => (s.endColl r stResidue).settle
      | none => s

/-- RESEND_REQ: the oldest kept packet of the stream goes again, marked RESENT (R445); one marked LAST is the notice of
RESIDUE_FAULT (R446). -/
def resendReqStep (s : State) : State :=
  match s.takeRx fun p => p.ty == 0x13 with
  | none => s
  | some (p, s1) =>
    if pkLastp p then s1.residueEnd p
    else
      match s1.cas.retain.find? fun k => sameStream k.pkt p with
      | some k => (s1.send { k.pkt with a := k.pkt.a ||| BitVec.ofNat 48 (2 ^ 20) }).1
      | none => s1
def execResendReq (s : State) : Host.Outcome State Fault Refusal := .next (resendReqStep s)

/-- Entries of a PERMUTE that a member has not landed yet, in table order. -/
def CollRun.landingAt (r : CollRun) (rank : Nat) : List Nat := r.landing.filter fun i => (r.table[i]?).any fun e => e.2.1 == rank

/-- LANDED: the first range that this member sent its sender, of the oldest instance that waits for one, is visible at its
destination (R458, R463). -/
def landedStep (s : State) : State :=
  match s.takeRx fun p => p.ty == 0x14 with
  | none => s
  | some (p, s1) =>
    match s1.group? (pkGid p) with
    | none => s1
    | some g =>
      let at_ := fun (r : CollRun) => r.landingAt (g.members.idxOf p.src)
      match s1.cas.colls.find? fun r => r.gid == g.gid && !(at_ r).isEmpty with
      | some r => ((s1.onColl r.rid fun x => { x with landing := x.landing.filter fun i => some i != (at_ r).head? }).pump).settle
      | none => s1
def execLanded (s : State) : Host.Outcome State Fault Refusal := .next (landedStep s)

/-! ### The close of a step (R450, R468) -/

/-- PHASE of step entry `i` of a job. -/
def State.phaseOf (s : State) (j : Job) (i : Nat) : Nat := s.numAt (s.stepAt (s.imgOf j) i + 1) 1
/-- SKIP_NON_FINITE of a training plan (02 state declaration). -/
def State.skipsNonFinite (s : State) (j : Job) : Bool := s.trains j && bitOf (s.decl (s.imgOf j) 49 1) 0
/-- Whether step entry `i` is a REDUCE_SCATTER in front of the updates (R450). -/
def State.scatters (s : State) (j : Job) (i : Nat) : Bool :=
  let e := s.stepAt (s.imgOf j) i
  decide (s.phaseOf j i < 3) && s.numAt e 1 == 2 && s.numAt (e + 18) 1 == 1
/-- Whether every entry of PHASE 3, and every REDUCE_SCATTER in front of the updates, has completed (R450; 02 R64). -/
def State.reduced (s : State) (j : Job) : Bool :=
  j.entries.zipIdx.all fun e => !(s.phaseOf j e.2 == 3 || s.scatters j e.2) || match e.1 with
    | .done _ => true
    | _ => false

/-- SKIP_COUNT_SUM: COUNT_SUM of the step count over the step group, once (R450). -/
def skipCountSumStep (job : Nat) (s : State) : State :=
  match s.job? job with
  | none => s
  | some j =>
    let issued := s.cas.colls.any fun r => r.who == .sum job
    if j.openStep.isNone || j.summed || issued || !s.skipsNonFinite j || !s.reduced j || !(j.st == .running || j.st == .pausing) then s
    else
      let u := s.fresh
      let c : CollPar := { gid := j.stepGroup, op := 9, wire := 6, sfmt := 6, dfmt := 6, src := 0, dst := 0, count := 1, aux := 0, arg := 0 }
      ((u.2.addColl (c.run u.1 j.tenant 1 (.sum job) none [] s.clk.nowUs)).startNext 1).settle
def execSkipCountSum (job : Nat) (s : State) : Host.Outcome State Fault Refusal := .next (skipCountSumStep job s)

/-- ARRIVE: a rank below has arrived with its risk (R468; 16 R573). -/
def arriveStep (s : State) : State :=
  match s.takeRx fun p => p.ty == 0x29 with
  | none => s
  | some (p, s1) =>
    match s1.jobOfPkt p with
    | none => s1
    | some j =>
      let b := p.payload
      let r := j.members.idxOf p.src
      if !ctlFieldsOk p 0 24 || 65536 ≤ fld b 16 8 || fld b 8 8 ≠ j.nextStep || !j.live || !j.members.contains p.src then s1
      else (s1.onJob j.handle fun x => { x with arrivals := (x.arrivals.filter fun a => a.1 != r) ++ [(r, fld b 16 8)] }).treeOn j.handle
def execArrive (s : State) : Host.Outcome State Fault Refusal := .next (arriveStep s)

/-- RELEASE: goes on down the tree, and the step closes here (R468; 16 R574). Rank 0 sends it only after every member has
arrived (01 R28), so a RELEASE before this member's own arrival comes from no member that keeps the rules; the step closes
then too, as R468 says (DESIGN CHOICE, log entry 112). -/
def releaseStepStep (s : State) : State :=
  match s.takeRx fun p => p.ty == 0x2A with
  | none => s
  | some (p, s1) =>
    match s1.jobOfPkt p with
    | none => s1
    | some j =>
      let b := p.payload
      if !ctlFieldsOk p 0 24 || 4 ≤ fld b 16 8 || j.openStep ≠ some (fld b 8 8) || !(j.st == .running || j.st == .pausing) ||
          j.members.idxOf p.src ≠ treeAbove j.members.length j.rank then s1
      else s1.releaseOn j (fld b 8 8) (bitOf (fld b 16 8) 0) (bitOf (fld b 16 8) 1)
def execReleaseStep (s : State) : Host.Outcome State Fault Refusal := .next (releaseStepStep s)

end Sys2Proof.Machine
end

