-- ==== Sys2Proof/Machine/Jobs.lean ====
section
/-! DEFINITION. Plans, jobs, steps and kernels (02 R60 to R70, 07 R256 to R258): PLAN_LOAD, JOB_START, JOB_PAUSE, JOB_RESUME,
JOB_STOP, STEP_RUN, KERNEL_LAUNCH, STEP_OPEN, STEP_ENTRY_START, STEP_WORK_END, and the packets JOB_CONTROL and JOB_FAILED. -/

namespace Sys2Proof.Machine

/-! ### PLAN_LOAD (02 R60 to R63) -/

/-- PLAN_LOAD. -/
def planLoadStep (att ring : Nat) (s : State) : State :=
  s.startCmd 0x0101 .inline att ring fun c s =>
    let a := c.f 16 8
    let n := c.f 24 8
    match s.tenant? c.tenant with
    | none => (s, .st stDenied)
    | some t =>
      if !c.z 32 32 || n = 0 then (s, .st stBadParam)
      else if !inPart t false true a n then (s, .st stDenied)
      else
        let rd := s.cmdRead a n
        if rd.2 ≠ stOK then (rd.1, .st rd.2)
        else
          let s := rd.1
          let tc := s.planTiles a
          if !s.planOk a n then (s, .st stBadParam)
          else if 16 ≤ t.plans.length || popCount 8 t.tiles.toNat < tc then (s, .st stNoResource)
          else
            let h := lowestFree (t.plans.map (·.handle))
            let p : Plan := { handle := h, addr := a, len := n, kind := s.planKind a, tiles := (tileList t.tiles.toNat).take tc,
                              digest := shake256 (s.bytesAt a n) 64 }
            ((s.relocate a p.tiles).onTenant c.tenant fun x => { x with plans := x.plans ++ [p] }, .done stOK (h + tc * 2 ^ 16) 0 0)
def execPlanLoad (att ring : Nat) (s : State) : Host.Outcome State Fault Refusal := .next (planLoadStep att ring s)

/-! ### KERNEL_LAUNCH (07 R256 to R258) -/

/-- Tiles and pairs an image of a kernel names on physical tiles. -/
def State.kernelCores (s : State) (img : Nat) (tiles : List Nat) : List (Nat × Nat) := tiles.map fun t => (t, s.kPairs img)
/-- Whether a tile already runs a kernel. -/
def State.tileKernel (s : State) (t : Nat) : Bool := s.blocked 1 t 0 || (s.tiles[t]?).any fun x => x.kernel.isSome

/-- KERNEL_LAUNCH. -/
def kernelLaunchStep (att ring : Nat) (s : State) : State :=
  s.startCmd 0x0107 .inline att ring fun c s =>
    let img := c.f 16 8
    let len := c.f 24 4
    let mask := c.f 28 1
    let args := c.f 48 8
    let tiles := tileList mask
    match s.tenant? c.tenant with
    | none => (s, .st stDenied)
    | some t =>
      if !c.z 29 3 || !c.z 60 4 then (s, .st stBadParam)
      else if !tiles.all (bitOf t.tiles.toNat) || !inPart t false false img len then (s, .st stDenied)
      else
        let rd := s.cmdRead img len
        if rd.2 ≠ stOK then (rd.1, .st rd.2)
        else
          let s := rd.1
          if !s.kImageOk img len || popCount 8 mask ≠ s.kTiles img then (s, .st stBadParam)
          else if !(s.kFootprint img).all (fun r => inPart t false false r.1 r.2) || !inPart t false false args (s.kArgs img) then
            (s, .st stDenied)
          else if s.anyFenced (s.kernelCores img tiles) || (s.kFootprint img).any (fun r => s.retiredIn r.1 r.2) then
            (s, .st stNoResource)
          else if tiles.any fun t => s.tileKernel t || s.tileJob t then (s, .st stBusy)
          else
            let ra := s.cmdRead args (s.kArgs img)
            if ra.2 ≠ stOK then (ra.1, .st ra.2)
            else
              let u := ra.1.fresh
              let k : Kernel :=
                { kid := u.1, tenant := c.tenant, entry := none, tiles := tiles, pairMask := BitVec.ofNat 16 (s.kPairs img),
                  seed := BitVec.ofNat 64 (c.f 32 8), step := BitVec.ofNat 64 (c.f 40 8), roll := [],
                  runLimitMs := if c.f 56 4 = 0 then 60000 else c.f 56 4, faults := [], startUs := s.clk.nowUs }
              (u.2.launch k img args, .wait (.kernel u.1))
def execKernelLaunch (att ring : Nat) (s : State) : Host.Outcome State Fault Refusal := .next (kernelLaunchStep att ring s)

/-! ### Job commands (02 R65 to R70) -/

/-- The policy of a job before a CKPT_POLICY: on command only, the other fields as zero sets them (DESIGN CHOICE, log entry 20). -/
def CkptPolicy.reset : CkptPolicy :=
  { auto := false, sharedEvery := 0, threshold := 16384, minS := 60, maxS := 21600, fleetFailures := 0, fleetHours := 4380000,
    stepTimeoutS := 0, sharedAtt := 0, sharedAddr := 0, sharedBytes := 0 }

/-- A job in STARTING (DESIGN CHOICE, log entry 20). -/
def newJob (h plan tenant gid rank now : Nat) (id seed : BitVec 64) (stepped : Bool) (members : List Nat)
    (windows : List (Nat × Nat × Nat)) : Job :=
  { handle := h, jobId := id, seed := seed, plan := plan, tenant := tenant, stepped := stepped, members := members, rank := rank,
    stepGroup := gid, st := .starting, windows := windows, lastClosed := none, openStep := none, pauseAt := none, runLeft := none,
    entries := [], summed := false, skip := false, stepCount := 0, failWith := none, workEnded := false, arrived := false,
    arrivals := [], openUs := now, times := [], closedSteps := 0, guardK := 0, guardNext := none, sentUp := false,
    pdataNext := none, pdataOut := 0, parityStep := none, ckpt := none, ckptAt := none, policy := CkptPolicy.reset, dueCount := 0,
    lastDueUs := now, armed := true, intervalUs := 0, costUs := none, costOpen := none, startUs := now, losses := 0, restore := none, resumeNext := false, early := [] }

/-- Cores that a plan names, by physical tile. -/
def State.planCores (s : State) (p : Plan) : List (Nat × Nat) := p.tiles.zipIdx.map fun x => (x.1, s.coreMask p.addr x.2)

/-- Checks 1 to 4 of R65 once the plan is known. A stopped or failed job does not count among the 4 jobs that a tenant
holds (DESIGN CHOICE, log entry 118). -/
def State.jobStartStatus (s : State) (c : Cmd) (t : Tenant) (p : Plan) : State × Nat :=
  let n := c.f 48 4
  let gid := c.f 52 2
  let list := inPart t false false (c.f 40 8) (2 * n)
  let rd := if list then s.cmdRead (c.f 40 8) (2 * n) else (s, stOK)
  let ids := rd.1.idsAt (c.f 40 8) n
  if (list && rd.2 == stOK && !rd.1.membersOk ids) || (s.group? gid).isSome ||
      !(s.planWindows p.addr).all (fun w => inPart t false true w.1 w.2.1) then (rd.1, stBadParam)
  else if !list then (s, stDenied)
  else if rd.2 ≠ stOK then rd
  else if s.anyFenced (s.planCores p) || (s.planFootprint p.addr).any (fun r => s.retiredIn r.1 r.2) ||
      decide (4 ≤ (s.work.jobs.filter fun j => j.live && j.tenant == t.id).length) || decide (4096 ≤ s.cas.groups.length) then
    (rd.1, stNoResource)
  else if p.tiles.any fun t => s.tileKernel t || s.tileJob t then (rd.1, stBusy)
  else (rd.1, stOK)

/-- JOB_START: the job, its windows and its step group (R65, R425; 11 R385) (DEDUCED, log entries 39, 43). -/
def jobStartStep (att ring : Nat) (s : State) : State :=
  State.checkGroups <| s.startCmd 0x0102 .inline att ring fun c s =>
    let n := c.f 48 4
    let gid := c.f 52 2
    match s.tenant? c.tenant with
    | none => (s, .st stDenied)
    | some t =>
      match t.plans.find? fun p => p.handle == c.f 16 2 with
      | none => (s, .st stBadParam)
      | some p =>
        if 1 < c.f 18 1 || !c.z 19 5 || !c.z 54 10 || !decide (1 ≤ n ∧ n ≤ 32768) || 4096 ≤ gid then (s, .st stBadParam)
        else
          let r := s.jobStartStatus c t p
          if r.2 ≠ stOK then (r.1, .st r.2)
          else
            let s := r.1
            let ids := s.idsAt (c.f 40 8) n
            let id := BitVec.ofNat 64 (c.f 32 8)
            let rank := ids.idxOf (s.fab.modId.getD 0)
            let h := lowestFree (s.work.jobs.map (·.handle))
            let j0 := newJob h p.handle t.id gid rank s.clk.nowUs id (BitVec.ofNat 64 (c.f 24 8)) (c.f 18 1 == 1) ids (s.planWindows p.addr)
            let s1 : State := { s with work := { s.work with jobs := s.work.jobs ++ [j0] } }
            let k := if s1.trains j0 then s1.decl p.addr 48 1 else 0
            let s2 := s1.onJob h fun x => { x with guardK := if s1.guardOk j0 k then k else 0 }
            let g : Group :=
              { gid := gid, vc := 1, low := true, job := h, members := ids, rank := rank,
                digest := groupDigest gid 1 1 id ids (toLE 1 t.tiles.toNat), st := .creating, step := true, issued := 0, doomed := [] }
            if n = 1 then ((s2.newGroup { g with st := .ready } id).startedJob h, .done stOK (h % 2 ^ 16 + rank * 2 ^ 16) 0 0)
            else (s2.newGroup g id, .wait (.jobStart h))
def execJobStart (att ring : Nat) (s : State) : Host.Outcome State Fault Refusal := .next (jobStartStep att ring s)

/-- The job a command names: unknown, BAD_PARAM; another tenant's, TENANT_DENIED. -/
def State.namedJob (s : State) (c : Cmd) (h : Nat) (f : Job → State × CmdEnd) : State × CmdEnd :=
  match s.job? h with
  | none => (s, .st stBadParam)
  | some j => if j.tenant ≠ c.tenant then (s, .st stDenied) else f j
/-- A reply with the job's last closed step. -/
def State.doneClosed (s : State) (j : Job) : State × CmdEnd := let v := s.lastClosedVal j; (v.1, .done stOK v.2 0 0)

/-- JOB_PAUSE (R67, R68, R70) (DEDUCED, log entry 43). -/
def jobPauseStep (att ring : Nat) (s : State) : State :=
  s.startCmd 0x0103 .inline att ring fun c s =>
    if !c.z 18 46 then (s, .st stBadParam)
    else s.namedJob c (c.f 16 2) fun j =>
      match j.st with
      | .running =>
        ((s.control j 1 0 j.pauseStep).onJob j.handle fun x => { x with st := .pausing, pauseAt := some j.pauseStep }, .wait (.jobPause j.handle))
      | .paused => s.doneClosed j
      | .stopped => (s, .st stBadParam)
      | .failed => (s, .st stBadParam)
      | _ => (s, .st stBusy)
def execJobPause (att ring : Nat) (s : State) : Host.Outcome State Fault Refusal := .next (jobPauseStep att ring s)

/-- A paused job runs on, on this member. -/
def State.resumeJob (s : State) (h : Nat) (left : Option Nat) : State :=
  s.onJob h fun x => { x with st := .running, runLeft := left, openUs := s.clk.nowUs }

/-- JOB_RESUME (R67, R70) (DEDUCED, log entry 43). -/
def jobResumeStep (att ring : Nat) (s : State) : State :=
  s.startCmd 0x0104 .inline att ring fun c s =>
    if !c.z 18 46 then (s, .st stBadParam)
    else s.namedJob c (c.f 16 2) fun j =>
      match j.st with
      | .running => (s, .st stOK)
      | .paused => if j.restore.isSome then (s, .st stBusy) else ((s.control j 2 0 atOnce).resumeJob j.handle none, .st stOK)
      | .stopped => (s, .st stBadParam)
      | .failed => (s, .st stBadParam)
      | _ => (s, .st stBusy)
def execJobResume (att ring : Nat) (s : State) : Host.Outcome State Fault Refusal := .next (jobResumeStep att ring s)

/-- JOB_STOP (R67, R69 to R71). -/
def jobStopStep (att ring : Nat) (s : State) : State :=
  s.startCmd 0x0105 .inline att ring fun c s =>
    if !c.z 18 46 then (s, .st stBadParam)
    else s.namedJob c (c.f 16 2) fun j =>
      match j.st with
      | .stopping => (s, .st stBusy)
      | .stopped => s.doneClosed j
      | .failed => s.doneClosed j
      | _ =>
        let s1 := (s.control j 3 0 atOnce).stopJob j.handle
        if (s1.job? j.handle).any fun x => x.st == .stopping then (s1, .wait (.jobStop j.handle)) else s1.doneClosed j
def execJobStop (att ring : Nat) (s : State) : Host.Outcome State Fault Refusal := .next (jobStopStep att ring s)

/-- STEP_RUN (R66) (DEDUCED, log entry 43). -/
def stepRunStep (att ring : Nat) (s : State) : State :=
  s.startCmd 0x0106 .inline att ring fun c s =>
    if !c.z 18 2 || !c.z 24 40 || c.f 20 4 = 0 then (s, .st stBadParam)
    else s.namedJob c (c.f 16 2) fun j =>
      if !j.stepped || !j.live then (s, .st stBadParam)
      else if j.st == .paused && j.restore.isNone then (s.resumeJob j.handle (some (c.f 20 4)), .wait (.stepRun j.handle))
      else (s, .st stBusy)
def execStepRun (att ring : Nat) (s : State) : Host.Outcome State Fault Refusal := .next (stepRunStep att ring s)

/-! ### Steps (02 R64; 01 R26 to R28) -/

/-- Whether a job may open a step now: a complete batch for a plan that reads one, a rollout for a serving plan
(R27; 14 R522; 15 R549). -/
def State.mayOpen (s : State) (j : Job) : Bool :=
  (j.st == .running || j.st == .pausing) && j.openStep.isNone &&
    (if s.trains j then
      !bitOf (s.planUses (s.imgOf j)) 0 || (s.pipeOf j.handle).any fun p => p.buffers.any fun b => b.n == p.readNo && b.st == 2
    else (s.rolloutOf j.handle).isSome)

/-- STEP_OPEN. -/
def stepOpenStep (job : Nat) (s : State) : State :=
  match s.job? job with
  | none => s
  | some j =>
    if !s.mayOpen j then s
    else
      let now := s.clk.nowUs
      let s1 := if j.lastClosed.isNone then s.zeroGen j j.nextStep else s
      let s2 := match s1.pipeOf job with
        | some p => s1.onPipe p.tenant fun x => { x with waitUs := x.waitUs + (now - j.openUs) }
        | none => s1
      s2.onJob job fun x =>
        { x with openStep := some j.nextStep, entries := List.replicate (s.steps (s.imgOf j)) .waiting, summed := !s.skipsNonFinite j
                 skip := false, stepCount := 0, workEnded := false, arrived := false, sentUp := false, openUs := now }
def execStepOpen (job : Nat) (s : State) : Host.Outcome State Fault Refusal := .next (stepOpenStep job s)

/-- A step entry's state set. -/
def State.setEntry (s : State) (h i : Nat) (e : EntryState) : State := s.onJob h fun j => { j with entries := modAt j.entries i fun _ => e }

/-- The walk that a KV_WALK entry at `e` names. -/
def State.walkAt (s : State) (j : Job) (e : Nat) : Walk :=
  let n := fun o k => s.numAt (e + o) k
  { layer := n 16 2, head0 := n 18 1, heads := n 19 1, tile := (s.tilesOfJob j).getD (n 20 1) 0, append := n 21 1 == 1,
    list := n 24 4, stride := n 28 4, dst := n 32 4, nbuf := n 36 1, pair := n 37 1 }

/-- The sequences of a job's rollout, each with its ROLLOUTS (15 R550). -/
def State.rollSeqs (s : State) (job : Nat) : List (Nat × Nat) :=
  match s.rolloutOf job with
  | none => []
  | some r => r.entries.map fun e => (e.seq, ((s.kv? r.cache).map fun k => s.kvRolls k e.seq).getD 0)

/-- A KERNEL entry runs as KERNEL_LAUNCH does, with the job's seed and step (R64; 07 R258) (DEDUCED, log entry 45). -/
def State.entryKernel (s : State) (j : Job) (i step e : Nat) : State :=
  let img := s.planKernel (s.imgOf j) (s.numAt (e + 16) 2)
  let tiles := (tileList (s.numAt (e + 20) 1)).map fun l => (s.tilesOfJob j).getD l 0
  let args := s.numAt (e + 24) 8
  if s.anyFenced (s.kernelCores img tiles) then s.setEntry j.handle i (.done stNoResource)
  else if tiles.any s.tileKernel then s.setEntry j.handle i (.done stBusy)
  else
    let ra := s.cmdRead args (s.kArgs img)
    if ra.2 = stWait then s
    else if ra.2 ≠ stOK then ra.1.setEntry j.handle i (.done ra.2)
    else
      let u := ra.1.fresh
      let lim := s.numAt (e + 32) 4
      let k : Kernel :=
        { kid := u.1, tenant := j.tenant, entry := some (j.handle, i), tiles := tiles, pairMask := BitVec.ofNat 16 (s.kPairs img),
          seed := j.seed, step := BitVec.ofNat 64 step, roll := ra.1.rollSeqs j.handle, runLimitMs := if lim = 0 then 60000 else lim, faults := [], startUs := s.clk.nowUs }
      (u.2.launch k img args).setEntry j.handle i .running

/-- A COLLECTIVE entry runs as the COLLECTIVE command does (R64). -/
def State.entryColl (s : State) (j : Job) (i e : Nat) : State :=
  let x := s.issueColl (s.bytesAt (e + 16) 48) j.tenant (.entry j.handle i)
  if x.2 = stWait then s
  else if x.2 ≠ stOK then x.1.setEntry j.handle i (.done x.2)
  else [1, 2, 3, 4].foldl State.startNext (x.1.setEntry j.handle i .running)

/-- Whether entry `i` may start: the entries it waits for have completed; the first of PHASE 4 waits for COUNT_SUM and
for the copy of the buffer it will write (R64; 16 R565; 01 R26). Nothing further holds the update of a step until the step
before has closed on the other members (01 R28) (DESIGN CHOICE, log entry 113). -/
def State.entryReady (s : State) (j : Job) (i step : Nat) : Bool :=
  let e := s.stepAt (s.imgOf j) i
  ((List.range (s.numAt (e + 2) 1)).all fun k => match j.entries[s.numAt (e + 4 + 2 * k) 2]? with
    | some (.done _) => true
    | _ => false) &&
  (s.numAt (e + 1) 1 != 4 || !s.trains j || (j.summed && !(j.ckpt.any fun c => decide (c.step + 2 ≤ step)) &&
    !(j.ckptAt.any fun c => decide (c.2 + 2 ≤ step))))

/-- STEP_ENTRY_START: the lowest entry not started, once it may start (R64); the first entry of PHASE 4 of a training
plan first zeroes the MAGIC of the buffer that the step writes (16 R557). -/
def stepEntryStartStep (job : Nat) (s : State) : State :=
  match s.job? job with
  | none => s
  | some j =>
    match j.openStep, j.entries.findIdx? (· == .waiting) with
    | some step, some i =>
      if !(j.st == .running || j.st == .pausing) || !s.entryReady j i step then s
      else
        let e := s.stepAt (s.imgOf j) i
        let first4 := s.trains j && s.numAt (e + 1) 1 == 4 && (i == 0 || s.phaseOf j (i - 1) != 4)
        let s1 := if first4 then (s.store 5 (s.recordAt j (step % 2)) (toLE 4 0)).1 else s
        let s2 := match s.numAt e 1 with
          | 1 => s1.entryKernel j i step e
          | 2 => s1.entryColl j i e
          | 3 =>
            match s1.rolloutOf job with
            | some r => let w := s1.kvWalk r (s1.walkAt j e); if w.2 = stWait then s1 else w.1.setEntry job i (.done w.2)
            | none => s1.setEntry job i (.done stBadParam)
          | _ => s1.setEntry job i (.done stOK)
        s2.settle
    | _, _ => s
def execStepEntryStart (job : Nat) (s : State) : Host.Outcome State Fault Refusal := .next (stepEntryStartStep job s)

/-- Whether every entry of the open step has completed with OK or NON_FINITE. -/
def Job.entriesDone (j : Job) : Bool :=
  j.entries.all fun e => match e with
    | .done st => st == stOK || st == stNonFinite
    | _ => false

/-- STEP_WORK_END: the state record, then parity, then ARRIVE (R64; 16 R557, R563, R564). A serving step ends when its
pictures are with their streams (15 R552). -/
def stepWorkEndStep (job : Nat) (s : State) : State :=
  match s.job? job with
  | none => s
  | some j =>
    match j.openStep with
    | none => s
    | some step =>
      let pics := (s.rolloutOf job).all fun r => r.entries.all fun e => e.queued == e.pictures
      if j.workEnded || !j.entriesDone || !j.summed || !pics || !(j.st == .running || j.st == .pausing) then s
      else
        let s1 := if s.trains j then s.writeRecord j step else s
        let s2 := s1.onJob job fun x => { x with workEnded := true, pdataNext := if x.guardK = 0 || !s.trains j then none else some 0 }
        (s2.parityOn job step).tryArrive job
def execStepWorkEnd (job : Nat) (s : State) : Host.Outcome State Fault Refusal := .next (stepWorkEndStep job s)

/-! ### Packets (11 R379, R380) -/

/-- JOB_CONTROL: pause, resume, stop, guard size or checkpoint, as the receiving member's command carried it (R67, R68;
16 R559, R566). What reaches a member that has not started or paused yet takes effect when it has; of two pending pauses
the earlier step holds (DEDUCED, log entry 43). -/
def jobControlStep (s : State) : State :=
  match s.takeRx fun p => p.ty == 0x20 with
  | none => s
  | some (p, s1) =>
    match s1.jobOfPkt p with
    | none => s1
    | some j =>
      let action := p.a.toNat % 256
      let arg := p.a.toNat / 256
      let target := leNat p.payload
      if !ctlFieldsOk p 16 8 || !j.members.contains p.src || !decide (1 ≤ action ∧ action ≤ 5) || (action < 4 && arg != 0) then s1
      else match action with
        | 1 => match j.st with
          | .running => s1.onJob j.handle fun x => { x with st := .pausing, pauseAt := some target }
          | .starting => s1.onJob j.handle fun x => { x with pauseAt := some target }
          | .pausing => s1.onJob j.handle fun x => { x with pauseAt := some (min target (x.pauseAt.getD target)) }
          | _ => s1
        | 2 =>
          if j.st == .paused && j.restore.isNone then s1.resumeJob j.handle none
          else if j.st == .starting || j.st == .pausing then s1.onJob j.handle fun x => { x with resumeNext := true }
          else s1
        | 3 => s1.stopJob j.handle
        | 4 => if s1.guardOk j arg then s1.onJob j.handle fun x => { x with guardNext := some (arg, target) } else s1
        | _ =>
          if target = atOnce then
            (match j.lastClosed with
              | some k => if j.ckpt.isNone then s1.startCkpt j.handle k arg else s1.onJob j.handle fun x => { x with ckptAt := some (arg, k) }
              | none => s1)
          else s1.onJob j.handle fun x => { x with ckptAt := some (arg, target) }
def execJobControl (s : State) : Host.Outcome State Fault Refusal := .next (jobControlStep s)

/-- JOB_FAILED (16 R576). -/
def jobFailedStep (s : State) : State :=
  match s.takeRx fun p => p.ty == 0x2C with
  | none => s
  | some (p, s1) =>
    match s1.jobOfPkt p with
    | none => s1
    | some j =>
      if !ctlFieldsOk p 0 16 || !zeroAt p.payload 9 7 || !j.members.contains p.src then s1
      else s1.failJob j.handle (fld p.payload 8 1) false
def execJobFailed (s : State) : Host.Outcome State Fault Refusal := .next (jobFailedStep s)

end Sys2Proof.Machine
end

