-- ==== Sys2Proof/Machine/HostPort.lean ====
section
/-! DEFINITION. Attachments, rings, tenants and device commands (02 R29 to R59; 17 R600): STATUS, IDENTIFY, ATTACH, DETACH,
BAD_OPCODE, doorbells, ring enable and disable, BAR2 accesses, ATT_FENCE, the reply deadline, the resets of an
attachment, the orphan hold and the clearing of released memories. -/

namespace Sys2Proof.Machine

/-! ### Attachments and rings -/

/-- Attachments that the lane split gives (19 R636). -/
def State.attCount (s : State) : Nat := if s.boot.split = 1 then 2 else if s.boot.split = 2 then 4 else 1
/-- Whether an attachment can carry accesses: it exists, D2 is powered, its link is up (17 R600, R604). -/
def State.attUp (s : State) (a : Nat) : Bool :=
  decide (a < s.attCount) && s.domOn 2 && (s.host.atts[a]?).any (·.link)
/-- Tenant bound to an attachment. -/
def State.boundTo (s : State) (a : Nat) : Option Tenant := (s.host.atts[a]?).bind fun x => s.tenant? x.tenant

/-- Slots of a ring: 16 in the bring-up window, else 2^LOG2_SIZE, values outside 4 to 12 acting as 4 (R32, R39). -/
def ringSlots (ring : Nat) (r : Ring) : Nat :=
  if ring = 0 && r.window then 16 else if 4 ≤ r.log2.toNat ∧ r.log2.toNat ≤ 12 then 2 ^ r.log2.toNat else 16
/-- Reply place of slot `i`. -/
def replyPlace (att ring : Nat) (r : Ring) (i : Nat) : ReplyLoc :=
  if ring = 0 && r.window then .hub att i else .hbm (r.replyBase.toNat + 32 * i)
/-- Whether slot `i` lies in memory that is being initialised, so that the module waits before it reads it (10 R338). -/
def State.slotWaits (s : State) (ring : Nat) (r : Ring) (i : Nat) : Bool :=
  !(ring = 0 && r.window) && (hbmAny s.groupInit (r.base.toNat + 64 * i) 64 || hbmAny s.groupInit (r.replyBase.toNat + 32 * i) 32)
/-- OWN of reply slot `i`: a line that cannot be read shows none (10 R327; DESIGN CHOICE, log entry 47). -/
def State.replyOwn (s : State) (att ring : Nat) (r : Ring) (i : Nat) : State × Bool :=
  match replyPlace att ring r i with
  | .hub a k => (s, bitOf (sget 0 s.host.hub (hubKey a (0x400 + 32 * k + 1))).toNat 0)
  | .hbm q => let x := s.load 5 q 32; (x.1, x.2.any fun b => bitOf (fld b 1 1) 0)
/-- Packet bytes of slot `i`; none where the line cannot be read (10 R327). -/
def State.slotPacket (s : State) (att ring : Nat) (r : Ring) (i : Nat) : State × Option Bytes :=
  if ring = 0 && r.window then (s, some (sgets 0 s.host.hub (hubKey att (64 * i)) 64)) else s.load 5 (r.base.toNat + 64 * i) 64

/-- Takes the packet at HEAD. One whose line cannot be read is answered UNCORRECTABLE; its OPCODE and SEQ are not known,
and the reply's echo of them is free (10 R327; DESIGN CHOICE, log entry 47). -/
def State.takeSlot (s : State) (att ring : Nat) (r : Ring) (i : Nat) : State :=
  let x := s.slotPacket att ring r i
  let s1 := x.1.onRing att ring fun y => { y with head := y.head + 1 }
  match x.2 with
  | some b =>
    let u := s1.fresh
    u.2.onRing att ring fun y =>
      { y with taken := y.taken ++ [{ index := r.head, loc := replyPlace att ring r i, bytes := b, uid := u.1, timedOut := false }] }
  | none =>
    let d := s1.draw
    d.2.reply (replyPlace att ring r i)
      (replyBytes stUncorrectable ((Config.freeWord d.1).setWidth 16) ((Config.freeWord d.1 >>> 16).setWidth 32) 0 0 0)

/-- Takes slots from HEAD to TAIL, at most `n`; a slot whose reply has OWN = 0 stalls the ring until the next doorbell
write (R35, R37). -/
def State.consume (s : State) (att ring : Nat) : Nat → State
  | 0 => s
  | n + 1 =>
    match s.ring? att ring with
    | none => s
    | some r =>
      let i := r.head.toNat % ringSlots ring r
      if !r.enable || r.stalled || r.head = r.tail || s.slotWaits ring r i then s
      else
        let o := s.replyOwn att ring r i
        if o.2 then (o.1.takeSlot att ring r i).consume att ring n
        else o.1.onRing att ring fun y => { y with ownStall := true, stalled := true }

/-- The rings that waited for their memory take their slots (10 R338). -/
def State.consumeAll (s : State) : State :=
  (List.range 4).foldl (fun st a => (List.range 8).foldl (fun u r => u.consume a r 4096) st) s

/-- DOORBELL_WRITE (R37, R38). -/
def doorbellWriteStep (att ring : Nat) (tail : BitVec 32) (s : State) : State :=
  match s.ring? att ring with
  | none => s
  | some r =>
    let room := (tail - r.head).toNat
    if !s.attUp att then s
    else if ringSlots ring r < room || decide (room < (r.tail - r.head).toNat) then s.onRing att ring fun x => { x with badTail := true }
    else (s.onRing att ring fun x => { x with tail := tail, stalled := false }).consume att ring 4096
def execDoorbellWrite (att ring : Nat) (tail : BitVec 32) (s : State) : Host.Outcome State Fault Refusal :=
  .next (doorbellWriteStep att ring tail s)

/-- A posted BAR2 write that lands; one that a line refuses is discarded and sets OOB_ACCESS (10 R329). -/
def State.landWrite (s : State) (att : Nat) (w : Nat × Bytes) : State :=
  let y := s.store 5 w.1 w.2
  if y.2 then y.1 else y.1.onAtt att fun z => { z with oob := true }
/-- Whether a posted write waits for the initialisation of its memory (10 R338). -/
def State.postedWaits (s : State) (w : Nat × Bytes) : Bool := hbmAny s.groupInit w.1 w.2.length
/-- The posted BAR2 writes of an attachment land, oldest first, up to one that waits for its memory (R34; 10 R329, R338). -/
def State.landPosted (s : State) (att : Nat) : State :=
  match s.host.atts[att]? with
  | none => s
  | some x =>
    (x.posted.takeWhile fun w => !s.postedWaits w).foldl (fun st w => st.landWrite att w)
      (s.onAtt att fun y => { y with posted := y.posted.dropWhile fun w => !s.postedWaits w })

/-- Bytes that a host read returns (DESIGN CHOICE, log entry 110). -/
def State.hostRead (s : State) (b : Bytes) (poison : Bool) : State :=
  { s with host := { s.host with readData := b, readPoison := poison } }

/-- DOORBELL_READ: returns the last accepted tail once every earlier posted write has landed, and not before (R34). -/
def doorbellReadStep (att ring : Nat) (s : State) : State :=
  match s.host.atts[att]?, s.ring? att ring with
  | some x, some r =>
    if !s.attUp att then s
    else if x.posted.any s.postedWaits then s.landPosted att
    else (s.landPosted att).hostRead (toLE 8 r.tail.toNat) false
  | _, _ => s
def execDoorbellRead (att ring : Nat) (s : State) : Host.Outcome State Fault Refusal := .next (doorbellReadStep att ring s)

/-- ATT_FENCE_READ: the prefetch buffers are discarded and the count of such reads is returned (R47) (DEDUCED, log entry 21). -/
def attFenceReadStep (att : Nat) (s : State) : State :=
  match s.host.atts[att]? with
  | none => s
  | some x =>
    if !s.attUp att then s
    else (s.onAtt att fun y => { y with prefetch := [], fenceCount := y.fenceCount + 1 }).hostRead (toLE 8 (x.fenceCount + 1).toNat) false
def execAttFenceRead (att : Nat) (s : State) : Host.Outcome State Fault Refusal := .next (attFenceReadStep att s)

/-- RING_ENABLE (R32, R39, R40). A LOG2_SIZE written while the ring is enabled acts at once and is not held against the
partition again, as a base is that REGISTER_WRITE changes then (DESIGN CHOICE, log entry 115); a ring that stood at
OWN = 0 goes on when it is enabled anew (DESIGN CHOICE, log entry 116). -/
def ringEnableStep (att ring : Nat) (log2 : BitVec 4) (s : State) : State :=
  match s.ring? att ring with
  | none => s
  | some r0 =>
    if !s.attUp att then s
    else
      let r := { r0 with log2 := log2 }
      let n := ringSlots 1 r
      let fits := fun a k => (s.boundTo att).any fun t => inPart t false true a k && decide (a + k ≤ hbmEnd)
      let win := ring == 0 && (s.boundTo att).isNone
      if r0.enable then s.onRing att ring fun _ => r
      else if win then (s.onRing att ring fun _ => { r with enable := true, window := true, stalled := false }).consume att ring 4096
      else if fits r.base.toNat (64 * n) && fits r.replyBase.toNat (32 * n) then
        (s.onRing att ring fun _ => { r with enable := true, window := false, stalled := false }).consume att ring 4096
      else s.onRing att ring fun _ => { r with baseDenied := true }
def execRingEnable (att ring : Nat) (log2 : BitVec 4) (s : State) : Host.Outcome State Fault Refusal :=
  .next (ringEnableStep att ring log2 s)

/-- RING_DISABLE: no further slot; commands in flight complete (R41). -/
def ringDisableStep (att ring : Nat) (log2 : BitVec 4) (s : State) : State :=
  if !s.attUp att then s else s.onRing att ring fun r => { r with enable := false, log2 := log2 }
def execRingDisable (att ring : Nat) (log2 : BitVec 4) (s : State) : Host.Outcome State Fault Refusal :=
  .next (ringDisableStep att ring log2 s)

/-! ### BAR2 (R29, R46, R47; 10 R329, R339) -/

/-- Whether BAR2 reaches a range: inside the bound tenant's HBM, no memory group of it off. -/
def State.bar2Ok (s : State) (att off n : Nat) : Bool :=
  (s.boundTo att).any (fun t => inPart t false true off n) && decide (off + n ≤ hbmEnd) && !hbmAny s.groupOff off n

/-- Lines of a range, and the one that follows it (DEDUCED, log entry 21). -/
def linesOf (off n : Nat) : List Nat := (List.range (ceilDiv (off % 64 + n) 64 + 1)).map fun i => off / 64 + i

/-- BAR2_READ: while its memory is being initialised it waits (10 R338); from memory, or, where `stale`, from lines the prefetch buffer still holds. A read from memory fills the
buffer with the lines it covers and the next one, and no older line stays behind it (R46, R47; DEDUCED, log entry 21). -/
def bar2ReadStep (att off len : Nat) (stale : Bool) (s : State) : State :=
  match s.host.atts[att]? with
  | none => s
  | some x =>
    if !s.attUp att || len = 0 || (s.bar2Ok att off len && hbmAny s.groupInit off len) then s
    else if !s.bar2Ok att off len then (s.onAtt att fun y => { y with oob := true }).hostRead (zeros len) false
    else
      let ls := (linesOf off len).dropLast
      let held := ls.map fun l => (x.prefetch.find? fun e => e.1 == l).map (·.2)
      if stale && held.all (·.isSome) then
        s.hostRead (((held.flatMap fun o => o.getD []).drop (off % 64)).take len) false
      else
        let r := s.load 5 off len
        match r.2 with
        | none => r.1.hostRead (List.replicate len 0xFF) true
        | some b =>
          let buf := (linesOf off len).filter (fun l => r.1.bar2Ok att (l * 64) 64 && (r.1.lineErrAt l).isNone)
          (r.1.onAtt att fun y => { y with prefetch := buf.map fun l => (l, r.1.bytesAt (l * 64) 64) }).hostRead b false
def execBar2Read (att off len : Nat) (stale : Bool) (s : State) : Host.Outcome State Fault Refusal :=
  .next (bar2ReadStep att off len stale s)

/-- BAR2_WRITE: accepted as a posted write, or discarded with OOB_ACCESS. -/
def bar2WriteStep (att off : Nat) (data : Bytes) (s : State) : State :=
  if !s.attUp att || data = [] then s
  else if !s.bar2Ok att off data.length then s.onAtt att fun y => { y with oob := true }
  else s.onAtt att fun y => { y with posted := y.posted ++ [(off, data)] }
def execBar2Write (att off : Nat) (data : Bytes) (s : State) : Host.Outcome State Fault Refusal := .next (bar2WriteStep att off data s)

/-! ### Replies (R44, R49) -/

/-- The packets taken and not started, each with its attachment, ring and tenant, those of unbound tenants last. -/
def State.takenAll (s : State) : List (Nat × Nat × Nat × Taken) :=
  (s.host.atts.zipIdx.flatMap fun a => a.1.rings.zipIdx.flatMap fun r => r.1.taken.map fun k => (a.2, r.2, a.1.tenant, k)) ++
    s.host.tenants.flatMap fun t => t.saved.zipIdx.flatMap fun r => r.1.taken.map fun k => (t.lastAtt, r.2, t.id, k)
/-- The packet with number `uid`, taken and not started, has been answered TIMEOUT. -/
def State.takenTimedOut (s : State) (uid : Nat) : State :=
  let mark := fun (l : List Taken) => modFirst (fun k => k.uid == uid) (fun k => { k with timedOut := true }) l
  { s with host := { s.host with
      atts := s.host.atts.map fun a => { a with rings := a.rings.map fun r => { r with taken := mark r.taken } }
      tenants := s.host.tenants.map fun t => { t with saved := t.saved.map fun r => { r with taken := mark r.taken } } } }

/-- REPLY_TIMEOUT: the reply is written with TIMEOUT; the command goes on, or starts yet (R44). Its vector is signalled at
this reply, and not when the action ends (R30; DESIGN CHOICE, log entry 114). -/
def replyTimeoutStep (uid : Nat) (s : State) : State :=
  match s.host.running.find? fun c => c.uid == uid with
  | some c =>
    if c.timedOut || c.timeoutMs = 0 then s
    else
      let s1 : State := { s with host := { s.host with
        running := modFirst (fun x => x.uid == uid) (fun x => { x with timedOut := true }) s.host.running } }
      let s2 := s1.reply c.loc (replyBytes stTimeout c.opcode c.seq 0 0 0)
      if c.irq then s2.signal c.att c.tenant c.ring else s2
  | none =>
    match s.takenAll.find? fun k => k.2.2.2.uid == uid with
    | none => s
    | some (a, r, t, k) =>
      if k.timedOut || fld k.bytes 12 4 = 0 then s
      else
        let s1 := (s.takenTimedOut uid).reply k.loc
          (replyBytes stTimeout (BitVec.ofNat 16 (fld k.bytes 0 2)) (BitVec.ofNat 32 (fld k.bytes 4 4)) 0 0 0)
        if bitOf (fld k.bytes 2 2) 1 then s1.signal a t r else s1
def execReplyTimeout (uid : Nat) (s : State) : Host.Outcome State Fault Refusal := .next (replyTimeoutStep uid s)

/-- BAD_OPCODE: a taken packet whose opcode the table does not list (R48, R49). -/
def badOpcodeStep (att ring : Nat) (s : State) : State :=
  match (s.heads att ring).find? fun h => !assignedOpcodes.contains (fld h.tk.bytes 0 2) && !s.heldBack h att ring with
  | none => s
  | some h =>
    let b := h.tk.bytes
    let s0 := s.popTaken h att ring
    if h.tk.timedOut then s0
    else
      let s1 := s0.reply h.tk.loc (replyBytes stBadOpcode (BitVec.ofNat 16 (fld b 0 2)) (BitVec.ofNat 32 (fld b 4 4)) 0 0 0)
      if bitOf (fld b 2 2) 1 then s1.signal (h.att att) (s.headTenant h att) ring else s1
def execBadOpcode (att ring : Nat) (s : State) : Host.Outcome State Fault Refusal := .next (badOpcodeStep att ring s)

/-! ### STATUS and IDENTIFY (R1, R50) -/

/-- Bring-up state code of STATUS. -/
def bringUpCode : BringUp → Nat
  | .none => 1
  | .boot => 1
  | .selftest => 2
  | .ready => 3
  | .failed => 4

/-- STATUS. -/
def statusCmdStep (att ring : Nat) (s : State) : State :=
  s.startCmd 0x0001 .inline att ring fun c s =>
    if !c.z 16 48 then (s, .st stBadParam)
    else
      let mask := ((s.host.tenants.filter fun t => t.att.isSome).map fun t => 2 ^ (t.id - 1)).sum
      (s, .done stOK (bringUpCode s.pow.bringUp + s.pow.cause % 256 * 2 ^ 8 + mask * 2 ^ 16) s.pow.selftest.toNat s.timeMs)
def execStatusCmd (att ring : Nat) (s : State) : Host.Outcome State Fault Refusal := .next (statusCmdStep att ring s)

/-- IDENTIFY (DESIGN CHOICE, log entry 7). -/
def identifyStep (att ring : Nat) (s : State) : State :=
  s.startCmd 0x0002 .inline att ring fun c s =>
    if !c.z 16 48 then (s, .st stBadParam)
    else
      (s, .done stOK (0x5644 + 0x4932 * 2 ^ 16 + 0x00A2 * 2 ^ 32)
        (s.fab.modId.getD 0 + s.fab.slotId * 2 ^ 15 + att * 2 ^ 21) Config.serial.toNat)
def execIdentify (att ring : Nat) (s : State) : Host.Outcome State Fault Refusal := .next (identifyStep att ring s)

/-! ### ATTACH and DETACH (R51 to R56) -/

/-- The first number from `v` on, upwards, that is not in a list. -/
def otherThan (l : List (BitVec 64)) (v : BitVec 64) : BitVec 64 :=
  (((List.range (l.length + 1)).map fun k => v + BitVec.ofNat 64 k).find? fun x => !l.contains x).getD v
/-- A fresh session ticket, which no tenant's ticket equals, the one that it replaces among them (R52, R54; DESIGN CHOICE,
log entry 6). -/
def State.newTicket (s : State) : BitVec 64 × State :=
  let d := s.draw
  (otherThan (s.host.tenants.map (·.ticket)) (Config.ticket d.1), d.2)

/-- Tiles that no tenant holds, and of them those that are not being cleared. -/
def State.looseTiles (s : State) : List Nat :=
  (List.range 8).filter fun t => s.host.tenants.all fun x => !bitOf x.tiles.toNat t
def State.freeTiles (s : State) : List Nat := s.looseTiles.filter fun t => !bitOf s.host.clearTiles.toNat t

/-- Signals what waited for a live binding, each vector once (R31, R55). -/
def State.signalPending (s : State) (att tenant : Nat) : State :=
  if !(s.host.atts[att]?).any (·.link) then s
  else
    let l := ((s.tenant? tenant).map (·.pendVec)).getD [] ++ ((s.host.atts[att]?).map (·.pendVec)).getD []
    let s1 := (s.onTenant tenant fun t => { t with pendVec := [] }).onAtt att fun x => { x with pendVec := [] }
    l.eraseDups.foldl (fun st v => st.msi att v) s1

/-- A new tenant: the lowest free id and tiles (R51; 03 R103; 17 R614). An id whose hub channels are still being cleared is
passed over for a higher one, and the tiles and the id of a tenant that is being released count as being cleared
(DESIGN CHOICE, log entry 117). -/
def State.attachNew (s : State) (c : Cmd) : State × CmdEnd :=
  let n := c.f 17 1
  let ids := [1, 2, 3, 4].filter fun i => (s.tenant? i).isNone
  let freeIds := ids.filter fun i => !bitOf s.host.clearHub.toNat (i - 1)
  let releasing := s.host.tenants.filter (·.releasing)
  let soon := (s.looseTiles.length) + (releasing.map fun t => popCount 8 t.tiles.toNat).sum
  match freeIds.head? with
  | none => (s, .st (if (ids != [] || releasing != []) && decide (n ≤ soon) then stBusy else stNoResource))
  | some i =>
    if s.freeTiles.length < n then (s, .st (if n ≤ soon then stBusy else stNoResource))
    else
      let tiles := s.freeTiles.take n
      let mask := (tiles.map fun t => 2 ^ t).sum
      let k := s.newTicket
      let t : Tenant :=
        { id := i, tiles := BitVec.ofNat 8 mask, att := some c.att, lastAtt := c.att, ticket := k.1, holdS := c.f 20 4, releasing := false,
          saved := [], pendVec := [], plans := [], telemDest := none }
      let s1 : State := { k.2 with host := { k.2.host with
        tenants := k.2.host.tenants.filter (fun x => decide (x.id < i)) ++ (t :: k.2.host.tenants.filter fun x => decide (i < x.id)) } }
      let s2 := s1.onAtt c.att fun x => { x with tenant := i }
      let s3 := tiles.foldl (fun st t =>
        (st.onGov t fun g => { g with policy := Policy.reset }).onMg t fun m => { m with nextHours := 24 }) s2
      (s3.signalPending c.att i, .done stOK (i + mask * 2 ^ 8) k.1.toNat 0)

/-- Binds a tenant that resumes: its rings come back with what they had taken, its commands in flight belong to the new
attachment's rings, then its pending vectors are signalled (R36, R53 to R55) (DEDUCED, log entry 41). Every ring's
OWN_STALL is cleared, since the ring goes on at its slot without a doorbell write, while BAD_TAIL and BASE_DENIED of
the new attachment stay (DESIGN CHOICE, log entry 116). -/
def State.attachResume (s : State) (c : Cmd) (t : Tenant) : State × CmdEnd :=
  let k := (s.unbind t.id).newTicket
  let saved := ((k.2.tenant? t.id).map (·.saved)).getD []
  let s1 := k.2.onAtt c.att fun x =>
    { x with
      tenant := t.id
      rings := x.rings.zipIdx.map fun r => match saved[r.2]? with
        | some v => { r.1 with base := v.base, replyBase := v.replyBase, enable := v.enable, log2 := v.log2, head := v.head, tail := v.tail,
                               window := v.window, taken := v.taken ++ r.1.taken, ownStall := false, stalled := false }
        | none => r.1 }
  let s2 := (s1.onTenant t.id fun x => { x with att := some c.att, lastAtt := c.att, ticket := k.1, saved := [] }).moveRunning
    (4 + t.id) c.att
  let s3 := (List.range 8).foldl (fun st r => st.consume c.att r 4096) s2
  (s3.signalPending c.att t.id, .done stOK (t.id + t.tiles.toNat * 2 ^ 8) k.1.toNat 0)

/-- ATTACH (DEDUCED, log entry 42). -/
def attachStep (att ring : Nat) (s : State) : State :=
  s.startCmd 0x0003 .inline att ring fun c s =>
    let mode := c.f 16 1
    if c.tenant ≠ 0 then (s, .st stDenied)
    else if !c.z 18 2 || !c.z 32 32 || (mode ≠ 0 && !c.z 17 1) || 2 < mode then (s, .st stBadParam)
    else if mode = 0 then
      if !decide (1 ≤ c.f 17 1 ∧ c.f 17 1 ≤ 8) || 604800 < c.f 20 4 then (s, .st stBadParam) else s.attachNew c
    else match s.host.tenants.find? fun t => t.ticket.toNat == c.f 24 8 with
      | none => (s, .st stAuthFailed)
      | some t =>
        if t.releasing then (s, .st stBusy)
        else if mode = 1 && t.att.isSome then (s, .st stDenied)
        else s.attachResume c t
def execAttach (att ring : Nat) (s : State) : Host.Outcome State Fault Refusal := .next (attachStep att ring s)

/-- DETACH (R56) (DEDUCED, log entry 17). -/
def detachStep (att ring : Nat) (s : State) : State :=
  s.startCmd 0x0004 .inline att ring fun c s =>
    if 1 < c.f 16 1 || !c.z 17 47 then (s, .st stBadParam)
    else match s.tenant? c.tenant with
      | none => (s, .st stDenied)
      | some t =>
        if t.releasing then (s, .st stBusy)
        else if c.f 16 1 = 1 then
          let k := s.newTicket
          ((k.2.onTenant t.id fun x => { x with ticket := k.1 }).unbind t.id, .done stOK 0 k.1.toNat 0)
        else
          let s1 := s.releaseTenant t.id
          if (s1.tenant? t.id).isSome then (s1, .wait (.release t.id)) else (s1, .st stOK)
def execDetach (att ring : Nat) (s : State) : Host.Outcome State Fault Refusal := .next (detachStep att ring s)

/-! ### Resets of an attachment and the orphan hold (R57 to R59; 17 R600) -/

/-- ATTACHMENT_RESET: reset of reach C. The tenant becomes unbound, rings take no slot, posted writes already accepted
land, jobs go on (R57). -/
def attachmentResetStep (att : Nat) (s : State) : State :=
  match s.host.atts[att]? with
  | none => s
  | some x =>
    if !x.link then s
    else
      let s1 := s.landPosted att
      let s2 := if x.tenant = 0 then s1 else s1.unbind x.tenant
      s2.onAtt att fun y => { y with link := false, rings := y.rings.map fun r => { r with enable := false } }
def execAttachmentReset (att : Nat) (s : State) : Host.Outcome State Fault Refusal := .next (attachmentResetStep att s)

/-- ATTACHMENT_LINK_UP: the link has retrained and the attachment can take ATTACH. While REFCLK is absent no attachment
trains (19 R637). -/
def attachmentLinkUpStep (att : Nat) (refclk : Bool) (s : State) : State :=
  let s1 : State := { s with boot := { s.boot with refclk := refclk } }
  if refclk && decide (att < s.attCount) && s.domOn 2 then s1.onAtt att fun x => { x with link := true } else s1
def execAttachmentLinkUp (att : Nat) (refclk : Bool) (s : State) : Host.Outcome State Fault Refusal :=
  .next (attachmentLinkUpStep att refclk s)

/-- Whether a tenant's orphan hold runs (R58). -/
def Tenant.orphan (t : Tenant) : Bool := t.att.isNone && t.holdS != 0 && !t.releasing

/-- ORPHAN_WARN: ATT_STATUS.ORPHAN_WARN of the attachment it was last bound to (R58). -/
def orphanWarnStep (tenant : Nat) (s : State) : State :=
  match s.tenant? tenant with
  | some t => if t.orphan then s.onAtt t.lastAtt fun x => { x with orphanWarn := true } else s
  | none => s
def execOrphanWarn (tenant : Nat) (s : State) : Host.Outcome State Fault Refusal := .next (orphanWarnStep tenant s)

/-- ORPHAN_HOLD_EXPIRY (R58) (DEDUCED, log entry 17). -/
def orphanHoldExpiryStep (tenant : Nat) (s : State) : State :=
  match s.tenant? tenant with
  | some t => if t.orphan then s.releaseTenant tenant else s
  | none => s
def execOrphanHoldExpiry (tenant : Nat) (s : State) : Host.Outcome State Fault Refusal := .next (orphanHoldExpiryStep tenant s)

/-- TENANT_CLEAR_DONE: a released tile's HBM, basins, accumulator memory and cistern read zero, or a released tenant's hub
channels are as at reset (R59). -/
def tenantClearDoneStep (hub : Bool) (index : Nat) (s : State) : State :=
  if hub then
    if !decide (1 ≤ index ∧ index ≤ 4) || !bitOf s.host.clearHub.toNat (index - 1) then s
    else
      let s1 := (List.range 8).foldl (fun st c => st.onChan 8 (8 * (index - 1) + c) fun _ => Chan.reset) s
      { s1 with host := { s1.host with clearHub := s1.host.clearHub &&& ~~~(BitVec.ofNat 4 (2 ^ (index - 1))) } }
  else if !decide (index < 8) || !bitOf s.host.clearTiles.toNat index then s
  else
    let s1 := ((s.zeroRange (index * groupBytes) groupBytes).zeroRange (tileWin index) recOff).zeroRange (accAddr index 0 0 0) (256 * 0x40000)
    let s2 := s1.onTile index fun x =>
      { x with cores := x.cores.map fun c => { c with acc := [] }
               mover := { x.mover with chans := x.mover.chans.zipIdx.map fun c => if 56 ≤ c.2 then Chan.reset else c.1 } }
    { s2 with host := { s2.host with clearTiles := s2.host.clearTiles &&& ~~~(BitVec.ofNat 8 (2 ^ index)) } }
def execTenantClearDone (hub : Bool) (index : Nat) (s : State) : Host.Outcome State Fault Refusal := .next (tenantClearDoneStep hub index s)

end Sys2Proof.Machine
end

