-- ==== Sys2Proof/Machine/BootFw.lean ====
section
/-! DEFINITION. Firmware and attestation commands (18): FW_STAGE, FW_ACTIVATE, KEY_MANIFEST and ATTEST. -/

namespace Sys2Proof.Machine

/-- Status of an object that fails R618: BAD_PARAM for the format, else AUTH_FAILED with the reason (R628)
(DEDUCED, log entry 31). -/
def reasonEnd (r : Nat) : CmdEnd := if r = 1 then .st stBadParam else .done stAuthFailed r 0 0

/-- A command's write of `n` bytes to the reservoir's grotto regions. While the controller accepts no write, after POWER_FAIL,
the command stands until the reset that follows ends it (10 R347; 17 R604). -/
def State.flash (s : State) (n : Nat) (w : State → State) (e : CmdEnd) : State × CmdEnd :=
  if s.resv.resHold then (s, .wait .reservoir) else ((w s).resWrote n, e)

/-- Whether FW_STAGE, FW_ACTIVATE or KEY_MANIFEST is running (R627). -/
def State.fwBusy (s : State) : Bool := s.host.running.any fun r => r.opcode == 0x0901 || r.opcode == 0x0902 || r.opcode == 0x0903

/-- FW_STAGE (R627, R628) (DESIGN CHOICE, log entry 99). -/
def fwStageStep (att ring : Nat) (s : State) : State :=
  s.startCmd 0x0901 .inline att ring fun c s =>
    let ty := c.f 16 1
    let n := c.f 32 8
    if !c.z 17 7 || !c.z 40 24 || !decide (1 ≤ ty ∧ ty ≤ 3) || n < objHeader || objHeader + bodyLimit ty < n then (s, .st stBadParam)
    else if !s.holdsAll c.tenant || !(s.tenant? c.tenant).any fun t => inPart t false false (c.f 24 8) n then (s, .st stDenied)
    else if s.fwBusy then (s, .st stBusy)
    else
      let rd := s.cmdRead (c.f 24 8) n
      if rd.2 ≠ stOK then (rd.1, .st rd.2)
      else
        let b := rd.1.bytesAt (c.f 24 8) n
        let r := rd.1.verify ty b
        if r ≠ 0 then (rd.1, reasonEnd r)
        else
          let i := (rd.1.copies ty).spare
          let drop := (rd.1.copies ty).tryPending && (rd.1.copies ty).tryCopy == i
          rd.1.flash (n + if drop then Config.recordBytes else 0) (fun u => u.onCopies ty fun x => ({ x with tryPending := x.tryPending && x.tryCopy != i }).setObj i b)
            (.done stOK 0 (objSvn b) i)
def execFwStage (att ring : Nat) (s : State) : Host.Outcome State Fault Refusal := .next (fwStageStep att ring s)

/-- FW_ACTIVATE (R627, R629) (DESIGN CHOICE, log entry 99). -/
def fwActivateStep (att ring : Nat) (s : State) : State :=
  s.startCmd 0x0902 .inline att ring fun c s =>
    let ty := c.f 16 1
    let mode := c.f 17 1
    let x := s.copies ty
    if !c.z 18 46 || !decide (1 ≤ ty ∧ ty ≤ 3) || 2 < mode then (s, .st stBadParam)
    else if !s.holdsAll c.tenant then (s, .st stDenied)
    else if s.fwBusy then (s, .st stBusy)
    else if mode = 0 then
      if s.verify ty (x.obj x.spare) ≠ 0 then (s, .st stAuthFailed)
      else s.flash Config.recordBytes (fun u => u.onCopies ty fun y => { y with tryCopy := x.spare, tryPending := true }) (.st stOK)
    else if mode = 2 then s.flash Config.recordBytes (fun u => u.onCopies ty fun y => { y with tryPending := false }) (.st stOK)
    else if x.running ≠ some x.preferred then (s, .st stBadParam)
    else s.flash Config.recordBytes (fun u => u.raiseCounter (counterOf ty) (objSvn x.runs)) (.st stOK)
def execFwActivate (att ring : Nat) (s : State) : Host.Outcome State Fault Refusal := .next (fwActivateStep att ring s)

/-- Whether a new manifest keeps an authorised signer for a stored object; an empty copy needs none. -/
def keepsSigner (body : Bytes) (type : Nat) (obj : Bytes) : Bool := obj == [] || keyMaySign (some body) type (objKey obj)

/-- KEY_MANIFEST (R626, R627) (DEDUCED, log entry 31; DESIGN CHOICE, log entry 99). -/
def keyManifestStep (att ring : Nat) (s : State) : State :=
  s.startCmd 0x0903 .inline att ring fun c s =>
    let n := c.f 24 8
    if !c.z 32 32 || n < objHeader || objHeader + bodyLimit 4 < n then (s, .st stBadParam)
    else if !s.holdsAll c.tenant || !(s.tenant? c.tenant).any fun t => inPart t false false (c.f 16 8) n then (s, .st stDenied)
    else if s.fwBusy then (s, .st stBusy)
    else
      let rd := s.cmdRead (c.f 16 8) n
      if rd.2 ≠ stOK then (rd.1, .st rd.2)
      else
        let b := rd.1.bytesAt (c.f 16 8) n
        let r := objReason rd.1.manifest? (rd.1.counter 4 + 1) 4 b
        let body := objBody b
        if r ≠ 0 then (rd.1, reasonEnd r)
        else if fld body 0 1 = 15 ||
            !([1, 2, 3].all fun ty => keepsSigner body ty ((rd.1.copies ty).obj (rd.1.copies ty).preferred)) ||
            !keepsSigner body 3 (rd.1.copies 3).runs then (rd.1, .st stBadParam)
        else
          rd.1.flash (n + Config.recordBytes)
            (fun u => State.raiseCounter { u with boot := { u.boot with manifest := b, manifestOk := true } } 3 (objSvn b)) (.st stOK)
def execKeyManifest (att ring : Nat) (s : State) : Host.Outcome State Fault Refusal := .next (keyManifestStep att ring s)

/-- Measurement of what runs; zero for nothing. -/
def measureOf (b : Bytes) : Bytes := if b = [] then zeros 64 else objMeasure b

/-- The device key pair, made from the identity seed (R631). No row answers with the private key or the seed. -/
def devicePublicKey : Bytes := (Config.mldsaKeyGen Config.identitySeed).1
def devicePrivateKey : Bytes := (Config.mldsaKeyGen Config.identitySeed).2

/-- Bytes 0 to 511 of the evidence (R632). -/
def State.evidence (s : State) (tn : Tenant) (plan nonce : Bytes) : Bytes :=
  padTo 512
    (toLE 4 0x41545331 ++ toLE 2 1 ++ zeros 2 ++ toLE 4 3821 ++ toLE 4 (s.boot.counters.getD 4 0) ++ toLE 8 Config.serial.toNat ++
      toLE 2 0x00A2 ++ toLE 2 (s.fab.modId.getD 0) ++ toLE 1 tn.id ++ toLE 1 tn.tiles.toNat ++ toLE 1 s.pow.cause ++
      toLE 1 (bringUpCode s.pow.bringUp) ++ nonce ++ (s.boot.counters.take 4).flatMap (toLE 4) ++
      measureOf (s.copies 1).runs ++ measureOf (s.copies 2).runs ++ measureOf (s.copies 3).runs ++
      (if s.boot.manifestOk then measureOf s.boot.manifest else zeros 64) ++ plan ++ shake256 devicePublicKey 32 ++
      toLE 8 s.timeMs)

/-- The certificate chain as ATTEST writes it: a count, then each certificate's length and bytes. -/
def certBytes : Bytes :=
  toLE 4 Config.certificates.length ++ Config.certificates.flatMap fun x => toLE 4 x.length ++ x

/-- ATTEST (R632, R633) (DEDUCED, log entry 104). -/
def attestStep (att ring : Nat) (s : State) : State :=
  s.startCmd 0x0005 .inline att ring fun c s =>
    let mode := c.f 16 1
    let h := c.f 18 2
    let cap := c.f 20 4
    let dest := c.f 24 8
    match s.tenant? c.tenant with
    | none => (s, .st stDenied)
    | some tn =>
      let plan := tn.plans.find? fun p => p.handle == h
      if 1 < mode || !c.z 17 1 || dest % 64 ≠ 0 then (s, .st stBadParam)
      else if (h ≠ 0xFFFF && plan.isNone) || !inPart tn false true dest cap then (s, .st stDenied)
      else
        let d := s.draw
        let ev := s.evidence tn ((plan.map (·.digest)).getD (zeros 64)) (fldBytes c.par 16 32)
        let out := if mode = 0 then ev ++ padTo 3309 (Config.mldsaSign devicePrivateKey d.1 (shake256 ev 64) (iglas 5)) else certBytes
        if cap < out.length then (s, .done stLimit out.length 0 0)
        else if hbmAny s.groupOff dest out.length then (s, .st stNoResource)
        else if hbmAny s.groupInit dest out.length then (s, .st stWait)
        else
          let r := (if mode = 0 then d.2 else s).store 5 dest out
          if r.2 then (r.1, .done stOK out.length 0 0) else (r.1, .st stUncorrectable)
def execAttest (att ring : Nat) (s : State) : Host.Outcome State Fault Refusal := .next (attestStep att ring s)

end Sys2Proof.Machine
end

