-- ==== Sys2Proof/Machine/Movers.lean ====
section
/-! DEFINITION. The movers (02 R71 to R83, R655, R656): the descriptor rows, bursts, completion, the mover commands, and
the move-slot instructions MOVD, XEXP and SPILL that hand requests to the movers, the XU and the spillway engine (07
R235, R242). -/

namespace Sys2Proof.Machine

/-! ### Starting a descriptor -/

/-- A descriptor in progress with nothing issued. -/
def newAct (d : Desc) (status : Nat) (listed : Bool) : Active :=
  { d := d, pos := 0, total := d.bytes, list := [], listed := listed, status := status, mism := 0, first := none,
    waiting := 0, page := [], cut := false }

/-- The channel's next descriptor, when it may start: its bytes, or none where they cannot be read (DEDUCED, log entry 59). -/
def State.fetchDesc (s : State) (mv : Nat) (r : Req) : Option (State × Option Bytes) :=
  match r.base with
  | none => (r.gen[r.done]?).map fun b => (s, some b)
  | some b =>
    let a := b + 64 * r.done
    if s.mustWait a 64 then none else some (s.load (mvSrc mv) a 64)

/-- Puts a descriptor in progress. -/
def State.setAct (s : State) (mv ch : Nat) (a : Active) : State := s.onChan mv ch fun c => { c with act := some a }

/-- Starts the channel's next descriptor when its operation is one of this row's: the checks of R655. -/
def State.descRow (s : State) (mv ch : Nat) (mine : Nat → Bool) : State :=
  match s.chan? mv ch, s.headReq mv ch with
  | some c, some r =>
    if c.act.isSome || c.stopping then s
    else
      match s.fetchDesc mv r with
      | none => s
      | some (s1, none) => if mine 0 then s1.setAct mv ch (newAct (descOf []) stUncorrectable true) else s
      | some (s1, some b) =>
        let d := descOf b
        if !mine d.op then s
        else if !descOk b then s1.setAct mv ch (newAct d stBadParam true)
        else
          let st := s1.descStatus2 r.src (mv == 8) d
          if st ≠ stOK then s1.setAct mv ch (newAct d st true)
          else if d.isGather then s1.setAct mv ch (newAct d stOK false)
          else s1.setAct mv ch (newAct d (s1.descStatus4 d []) true)
  | _, _ => s

/-- Steps 3 and 4 of R655 once the index list is whole. -/
def State.listWhole (s : State) (mv ch : Nat) (src : ReqSrc) (a : Active) : State :=
  let st3 := s.rangesStatus src (mv == 8) false (a.d.srcRanges a.list)
  let st := if st3 ≠ stOK then st3 else s.descStatus4 a.d a.list
  s.setAct mv ch { a with listed := true, status := st }

/-- Reads the index list of a GATHER, or its next part where a peer holds it (02 R655). -/
def State.listStep (s : State) (mv ch : Nat) : State :=
  match s.headReq mv ch, (s.chan? mv ch).bind (·.act) with
  | some r, some a =>
    if a.listed || a.waiting ≠ 0 || a.status ≠ stOK then s
    else
      let need := 4 * a.d.dstS1
      let from_ := a.d.listAt + a.list.length
      let k := match s.placeOf from_ 1 with
        | .loc _ => need - a.list.length
        | _ => min (need - a.list.length) (512 - from_ % 512)
      match s.moverGet mv r.src from_ k with
      | (_, .later) => s
      | (s1, .err st) => s1.failAct mv ch st
      | (s1, .ask m x j) => (s1.readReq mv ch m j x k fun _ => .index mv ch).getD s
      | (s1, .data bs) =>
        let b := { a with list := a.list ++ bs }
        if b.list.length = need then s1.listWhole mv ch r.src b else s1.setAct mv ch b
  | _, _ => s

/-- COPY. An operation that is not defined, or a descriptor that cannot be read, ends here with its status. -/
def copyStep (mv ch : Nat) (s : State) : State := s.descRow mv ch fun op => !(op == 2 || op == 3 || op == 4)
def execCopy (mv ch : Nat) (s : State) : Host.Outcome State Fault Refusal := .next (copyStep mv ch s)

/-- FILL. -/
def fillDescriptorStep (mv ch : Nat) (s : State) : State := s.descRow mv ch (· == 2)
def execFillDescriptor (mv ch : Nat) (s : State) : Host.Outcome State Fault Refusal := .next (fillDescriptorStep mv ch s)

/-- COMPARE. -/
def compareDescriptorStep (mv ch : Nat) (s : State) : State := s.descRow mv ch (· == 3)
def execCompareDescriptor (mv ch : Nat) (s : State) : Host.Outcome State Fault Refusal := .next (compareDescriptorStep mv ch s)

/-- GATHER: the checks, then its index list. -/
def gatherStep (mv ch : Nat) (s : State) : State := (s.descRow mv ch (· == 4)).listStep mv ch
def execGather (mv ch : Nat) (s : State) : Host.Outcome State Fault Refusal := .next (gatherStep mv ch s)

/-! ### Bursts (02 R79) -/

/-- Row, source, destination and length of the next burst: it ends at the row's end and at a 512-byte boundary of the
destination, of SRC for COMPARE (DEDUCED, log entry 61). -/
def Active.next (a : Active) : Nat × Nat × Nat :=
  let i := a.pos / a.d.rowLen
  let o := a.pos % a.d.rowLen
  let dst := a.d.dstRow i + o
  let src := a.d.srcRow a.list i + o
  (src, dst, min (a.d.rowLen - o) (512 - (if a.d.op = 3 then src else dst) % 512))

/-- `n` bytes of a FILL pattern from position `pos` on. -/
def Desc.pattern (d : Desc) (pos n : Nat) : Bytes :=
  (List.range n).map fun i => BitVec.ofNat 8 (d.src / 256 ^ ((pos + i) % d.fillWidth))

/-- Whether the kernel of a request stops for a fault. -/
def State.faulted (s : State) : ReqSrc → Bool
  | .command _ _ => false
  | .path _ _ _ _ k => (s.kernel? k).any fun x => x.faults != []

/-- The descriptor in progress of a channel when it has a burst to issue. -/
def State.burstReady (s : State) (mv ch : Nat) : Option (Req × Active) :=
  match s.headReq mv ch, (s.chan? mv ch).bind (·.act) with
  | some r, some a => if a.listed && a.status == stOK && !a.halted && decide (a.pos < a.total) && !s.faulted r.src then some (r, a) else none
  | _, _ => none

/-- FILL's burst; a zero pattern trims whole pages of a staging quarter (10 R342) (DEDUCED, log entry 60). -/
def State.fillBurst (s : State) (mv ch : Nat) (r : Req) (a : Active) (dst n : Nat) : Option State :=
  let zero := a.d.src % 256 ^ a.d.fillWidth == 0
  match s.placeOf dst n with
  | .loc x =>
    if zero && inStaging x then
      if s.mustWait x n || s.resv.resHold then none
      else some (if (x + n) % 4096 = 0 then s.trim (x + n - 4096) 4096 else s)
    else s.moverPut mv ch r.src a.d.prio dst (a.d.pattern (a.pos % a.d.rowLen) n)
  | _ => s.moverPut mv ch r.src a.d.prio dst (a.d.pattern (a.pos % a.d.rowLen) n)

/-- COMPARE's burst. -/
def State.compareBurst (s : State) (mv ch : Nat) (r : Req) (a : Active) (src dst n : Nat) : Option State :=
  match s.moverGet mv r.src src n with
  | (_, .later) => none
  | (s1, .err st) => some (s1.failAct mv ch st)
  | (s1, .ask m x j) => s1.readReq mv ch m j x n fun rest => .cmp mv ch dst a.pos [] rest
  | (s1, .data bs) =>
    match s1.moverGet mv r.src dst n with
    | (_, .later) => none
    | (s2, .err st) => some (s2.failAct mv ch st)
    | (s2, .ask m x j) => s2.readReq mv ch m j x n fun rest => .cmpWith mv ch a.pos bs [] rest
    | (s2, .data cs) => some (s2.onAct mv ch fun y => y.compared a.pos bs cs)

/-- COPY's and GATHER's burst. Bytes for a staging page come in order: the burst waits for the ones before it. -/
def State.copyBurst (s : State) (mv ch : Nat) (r : Req) (a : Active) (src dst n : Nat) : Option State :=
  let stg := match s.placeOf dst n with
    | .loc x => inStaging x
    | _ => false
  if stg && a.waiting != 0 then none
  else
    match s.moverGet mv r.src src n with
    | (_, .later) => none
    | (s1, .err st) => some (s1.failAct mv ch st)
    | (s1, .ask m x j) => s1.readReq mv ch m j x n fun rest => .read mv ch dst [] rest
    | (s1, .data bs) => s1.moverPut mv ch r.src a.d.prio dst bs

/-- The next burst of a channel; none when it has none or must wait (DEDUCED, log entry 61). -/
def State.burst (s : State) (mv ch : Nat) : Option State :=
  match s.burstReady mv ch with
  | none => none
  | some (r, a) =>
    let x := a.next
    let out := match a.d.op with
      | 2 => s.fillBurst mv ch r a x.2.1 x.2.2
      | 3 => s.compareBurst mv ch r a x.1 x.2.1 x.2.2
      | _ => s.copyBurst mv ch r a x.1 x.2.1 x.2.2
    out.map fun s1 => s1.onAct mv ch fun y => { y with pos := a.pos + x.2.2 }

/-- The hazard of a channel whose next burst waits on a lock. -/
def State.burstHazard (s : State) (mv ch : Nat) : State :=
  match s.burstReady mv ch with
  | some (r, a) => if a.d.writesDst then s.putHazard r.src a.next.2.1 a.next.2.2 else s
  | none => s

/-- Channels of one level with a burst to issue, the one after the last served first (02 R79). -/
def State.levelOrder (s : State) (mv : Nat) (m : Mover) (lvl : Nat) : List Nat :=
  let l := (List.range m.chans.length).filter fun ch => (s.burstReady mv ch).any fun x => x.2.d.prio == lvl
  let last := m.rr.getD lvl 0
  (l.filter fun ch => decide (last < ch)) ++ l.filter fun ch => decide (ch ≤ last)

/-- The first channel of an order that can issue its burst. -/
def State.firstBurst (s : State) (mv lvl : Nat) : List Nat → State × Bool
  | [] => (s, false)
  | ch :: r =>
    match s.burst mv ch with
    | some s1 => (s1.onMover mv fun m => { m with rr := modAt m.rr lvl fun _ => ch }, true)
    | none => (s.burstHazard mv ch).firstBurst mv lvl r

/-- BURST_ISSUE: strict priority between levels, round-robin within one (02 R79). -/
def burstIssueStep (mv : Nat) (s : State) : State :=
  match s.mover? mv with
  | none => s
  | some m =>
    ([7, 6, 5, 4, 3, 2, 1, 0].foldl (fun (x : State × Bool) lvl =>
      if x.2 then x else x.1.firstBurst mv lvl (x.1.levelOrder mv m lvl)) (s, false)).1
def execBurstIssue (mv : Nat) (s : State) : Host.Outcome State Fault Refusal := .next (burstIssueStep mv s)

/-! ### Completion (02 R77, R78, R80) -/

/-- A request after its descriptor `done` ended with a status. -/
def Req.after (r : Req) (st : Nat) (a : Active) : Req :=
  { r with done := r.done + 1, bad := if r.bad.isNone && st ≠ stOK then some (r.done, st) else r.bad,
           fail := if r.fail.isNone && st ≠ stOK && st ≠ stMiscompare then some st else r.fail,
           mism := sat32 (r.mism + a.mism), first := if r.first.isSome then r.first else a.first.map (r.bytes + ·),
           bytes := r.bytes + a.total }

/-- Bytes that the end of a descriptor with a status writes back: its own, and those of the descriptors behind it that
return ABORTED (02 R78, R80). -/
def Req.backSpan (r : Req) (b st : Nat) : Nat × Nat :=
  let at_ := b + 64 * r.done + 48
  (at_, if st = stOK || st = stMiscompare then 16 else 64 * (r.count - r.done) - 48)

/-- DESCRIPTOR_COMPLETE. The write-back to a basin waits for a read lock (05 R167). -/
def descriptorCompleteStep (mv ch : Nat) (s : State) : State :=
  match s.chan? mv ch, s.headReq mv ch, (s.chan? mv ch).bind (·.act) with
  | some c, some r, some a =>
    let st := if a.status ≠ stOK then a.status else if a.pos < a.total then stAborted
      else if a.mism ≠ 0 then stMiscompare else stOK
    let back := (r.base.map fun b => r.backSpan b st).getD (0, 0)
    if a.waiting ≠ 0 || (a.status == stOK && (!a.listed || (decide (a.pos < a.total) && !a.halted))) then s
    else if (s.lockOn back.1 back.2).isSome then s.putHazard r.src back.1 back.2
    else
      let first := if a.d.op = 3 then a.first.getD 0xFFFFFFFFFFFFFFFF else 0
      let s1 := match r.base with
        | some b => s.putFields (b + 64 * r.done) (descBack st a.mism first)
        | none => s
      let s2 := if a.d.event then s1.chanEvent mv ch (s.reqTenant r.src) else s1
      let r1 := r.after st a
      let stop := st ≠ stOK && st ≠ stMiscompare
      let ends := stop || r1.count ≤ r1.done
      let s3 := s2.onChan mv ch fun x => { x with act := none, reqs := if ends then x.reqs.drop 1 else modAt x.reqs 0 fun _ => r1 }
      let s4 := if ends then (if stop then s3.abortReq r1 else s3.reqEnd r1) else s3
      if c.stopping then s4.closeChan mv ch else s4
  | _, _, _ => s
def execDescriptorComplete (mv ch : Nat) (s : State) : Host.Outcome State Fault Refusal := .next (descriptorCompleteStep mv ch s)

/-! ### Mover commands (02 R73, R82, R83, R656) -/

/-- Whether a tenant's commands may use a channel (02 R73). -/
def State.ownsChan (s : State) (tn mv ch : Nat) : Bool :=
  if mv = 8 then decide (8 * (tn - 1) ≤ ch ∧ ch < 8 * tn)
  else decide (56 ≤ ch ∧ ch < 64) && (s.tenant? tn).any fun t => bitOf t.tiles.toNat mv

/-- Status of naming a channel: OK where the tenant may. -/
def State.nameChan (s : State) (c : Cmd) : Nat :=
  if 8 < c.f 16 1 then stBadParam else if !s.ownsChan c.tenant (c.f 16 1) (c.f 17 1) then stDenied else stOK

/-- Status of using a channel for MOVE, FILL or COMPARE (02 R72, R83). -/
def State.useChan (s : State) (c : Cmd) : Nat :=
  if s.nameChan c ≠ stOK then s.nameChan c
  else match s.chan? (c.f 16 1) (c.f 17 1) with
    | some x =>
      if x.stopping || s.chanBlocked (c.f 16 1) (c.f 17 1) then stBusy else if x.enabled then stOK else stNoResource
    | none => stDenied

/-- A new request. -/
def newReq (src : ReqSrc) (base : Option Nat) (gen : List Bytes) (count : Nat) : Req :=
  { src := src, base := base, gen := gen, count := count, done := 0, bad := none, fail := none, mism := 0, first := none, bytes := 0 }

/-- Gives a request to a channel. -/
def State.pushReq (s : State) (mv ch : Nat) (r : Req) : State := s.onChan mv ch fun c => { c with reqs := c.reqs ++ [r] }

/-- MOVE. -/
def moveStep (att ring : Nat) (s : State) : State :=
  s.startCmd 0x0201 .inline att ring fun c s =>
    let n := c.f 32 4
    if !c.z 18 6 || !c.z 36 28 then (s, .st stBadParam)
    else if n < 1 || 65536 < n then (s, .st stBadParam)
    else if s.useChan c ≠ stOK then (s, .st (s.useChan c))
    else if !(s.tenant? c.tenant).any fun t => inPart t false true (c.f 24 8) (64 * n) then (s, .st stDenied)
    else (s.pushReq (c.f 16 1) (c.f 17 1) (newReq (.command c.uid c.tenant) (some (c.f 24 8)) [] n), .wait (.mover (c.f 16 1) (c.f 17 1)))
def execMoveCmd (att ring : Nat) (s : State) : Host.Outcome State Fault Refusal := .next (moveStep att ring s)

/-- The one or two descriptors that carry a FILL or COMPARE (02 R656). -/
def genDescs (op width src dst len : Nat) : List Bytes :=
  if len ≤ 0xFFFFFFFF then [genDesc op 0 0 width len src dst 0 0 0]
  else
    let k := len / 2 ^ 31
    let s1 := if op = 3 then 2 ^ 31 else 0
    let rest := len - k * 2 ^ 31
    if rest = 0 then [genDesc op 1 0 width (2 ^ 31) src dst k s1 (2 ^ 31)]
    else [genDesc op 1 1 width (2 ^ 31) src dst k s1 (2 ^ 31),
          genDesc op 0 0 width rest (if op = 3 then src + k * 2 ^ 31 else src) (dst + k * 2 ^ 31) 0 0 0]

/-- Runs generated descriptors on a command's channel. -/
def State.runGen (s : State) (c : Cmd) (l : List Bytes) : State × CmdEnd :=
  (s.pushReq (c.f 16 1) (c.f 17 1) (newReq (.command c.uid c.tenant) none l l.length), .wait (.mover (c.f 16 1) (c.f 17 1)))

/-- FILL. A length that is no multiple of the width fails where a descriptor carries it (02 R75). -/
def fillStep (att ring : Nat) (s : State) : State :=
  s.startCmd 0x0202 .inline att ring fun c s =>
    let w := c.f 18 1
    let n := c.f 32 8
    if !c.z 19 5 || !c.z 48 16 then (s, .st stBadParam)
    else if !([1, 2, 4, 8].contains w) || n < 1 || 2 ^ 40 < n then (s, .st stBadParam)
    else if s.useChan c ≠ stOK then (s, .st (s.useChan c))
    else s.runGen c (genDescs 2 w (c.f 40 8) (c.f 24 8) n)
def execFillCmd (att ring : Nat) (s : State) : Host.Outcome State Fault Refusal := .next (fillStep att ring s)

/-- COMPARE. -/
def compareStep (att ring : Nat) (s : State) : State :=
  s.startCmd 0x0203 .inline att ring fun c s =>
    let n := c.f 40 8
    if !c.z 18 6 || !c.z 48 16 then (s, .st stBadParam)
    else if n < 1 || 2 ^ 40 < n then (s, .st stBadParam)
    else if s.useChan c ≠ stOK then (s, .st (s.useChan c))
    else s.runGen c (genDescs 3 0 (c.f 24 8) (c.f 32 8) n)
def execCompareCmd (att ring : Nat) (s : State) : Host.Outcome State Fault Refusal := .next (compareStep att ring s)

/-- FENCE: at once when no earlier command of its ring runs, else when the last of them ends. -/
def fenceStep (att ring : Nat) (s : State) : State :=
  s.startCmd 0x0204 .inline att ring fun c s =>
    if !c.z 16 48 then (s, .st stBadParam)
    else if s.ringBusy c.att ring then (s, .wait .fence)
    else (s, .st stOK)
def execFenceCmd (att ring : Nat) (s : State) : Host.Outcome State Fault Refusal := .next (fenceStep att ring s)

/-- CHANNEL_ENABLE. -/
def channelEnableStep (att ring : Nat) (s : State) : State :=
  s.startCmd 0x0205 .inline att ring fun c s =>
    let v := c.f 19 1
    if !c.z 18 1 || !c.z 20 44 then (s, .st stBadParam)
    else if !((8 ≤ v && v < 16) || v == 0xFF) then (s, .st stBadParam)
    else if s.nameChan c ≠ stOK then (s, .st (s.nameChan c))
    else match s.chan? (c.f 16 1) (c.f 17 1) with
      | none => (s, .st stDenied)
      | some x =>
        if x.stopping || s.chanBlocked (c.f 16 1) (c.f 17 1) then (s, .st stBusy)
        else if x.enabled then (s, .st stOK)
        else (s.onChan (c.f 16 1) (c.f 17 1) fun y => { y with enabled := true, vector := v }, .st stOK)
def execChannelEnable (att ring : Nat) (s : State) : Host.Outcome State Fault Refusal := .next (channelEnableStep att ring s)

/-- CHANNEL_DISABLE: under the stop rule. -/
def channelDisableStep (att ring : Nat) (s : State) : State :=
  s.startCmd 0x0206 .inline att ring fun c s =>
    if !c.z 18 46 then (s, .st stBadParam)
    else if s.nameChan c ≠ stOK then (s, .st (s.nameChan c))
    else match s.chan? (c.f 16 1) (c.f 17 1) with
      | none => (s, .st stDenied)
      | some x =>
        if x.stopping then (s, .st stBusy)
        else if !x.enabled then (s, .st stOK)
        else if x.act.isNone then (s.closeChan (c.f 16 1) (c.f 17 1), .st stOK)
        else (s.stopChan (c.f 16 1) (c.f 17 1), .wait (.chanStop (c.f 16 1) (c.f 17 1)))
def execChannelDisable (att ring : Nat) (s : State) : Host.Outcome State Fault Refusal := .next (channelDisableStep att ring s)

/-! ### Move-slot instructions (07 R235, R242) -/

/-- Applies `f` to the front of the move queue when its opcode is `op` (DESIGN CHOICE, log entry 1). -/
def State.movRow (s : State) (t p op : Nat) (f : Kernel → QItem → State → State) : State :=
  match s.path? t p, s.kernelOn t with
  | some x, some k =>
    match x.xq.head? with
    | some q => if s.issues t && x.active && wf q.word 5 0 == op then f k q s else s
    | none => s
  | _, _ => s

/-- First descriptor and number of a move slot. -/
def QItem.desc (q : QItem) : Nat := q.eff (wf q.word 41 16)
def QItem.ndesc (q : QItem) : Nat := wf q.word 49 42 + 1

/-- Takes a move-slot instruction off its queue as a request in progress, with its token signal. -/
def State.moveOut (s : State) (t p : Nat) (q : QItem) : State :=
  (s.popX t p).onPath t p fun x => { x with moves := x.moves ++
    [{ seq := q.seq, bundle := q.bundle, sig := if bitOf q.word.toNat 61 then some (wf q.word 60 58, wf q.word 57 50) else none }] }

/-- MOVD. -/
def movdStep (t p : Nat) (s : State) : State :=
  s.movRow t p 0x01 fun k q s =>
    let ch := wf q.word 11 6
    if s.chanBlocked t ch then s
    else if ch % 16 ≠ p || 56 ≤ ch then s.faultX t p kfChannelOwner q.bundle
    else if !inMem q.desc (64 * q.ndesc) 64 cisBytes then s.faultX t p kfCisternRange q.bundle
    else (s.moveOut t p q).pushReq t ch
      (newReq (.path t p q.seq q.bundle k.kid) (some (cisAddr t q.desc)) [] q.ndesc)
def execMovd (t p : Nat) (s : State) : Host.Outcome State Fault Refusal := .next (movdStep t p s)

/-- A request for the XU or the spillway engine. -/
def unitReq (t p : Nat) (k : Kernel) (q : QItem) : UnitReq :=
  { t := t, p := p, seq := q.seq, bundle := q.bundle, kid := k.kid, base := q.desc, count := q.ndesc, done := 0 }

/-- XEXP. -/
def xexpStep (t p : Nat) (s : State) : State :=
  s.movRow t p 0x02 fun k q s =>
    if s.blocked 4 t 0 then s
    else if !inMem q.desc (128 * q.ndesc) 128 cisBytes then s.faultX t p kfCisternRange q.bundle
    else (s.moveOut t p q).onTile t fun x => { x with xu := x.xu ++ [unitReq t p k q] }
def execXexp (t p : Nat) (s : State) : Host.Outcome State Fault Refusal := .next (xexpStep t p s)

/-- SPILL. -/
def spillStep (t p : Nat) (s : State) : State :=
  s.movRow t p 0x03 fun k q s =>
    if s.blocked 5 t 0 then s
    else if !inMem q.desc (128 * q.ndesc) 128 cisBytes then s.faultX t p kfCisternRange q.bundle
    else (s.moveOut t p q).onTile t fun x => { x with spw := x.spw ++ [unitReq t p k q] }
def execSpill (t p : Nat) (s : State) : Host.Outcome State Fault Refusal := .next (spillStep t p s)

end Sys2Proof.Machine
end

