-- ==== Sys2Proof/Machine/Transc.lean ====
section
/-! DEFINITION. The transcendental operations (06 R214, R215): the exact result, or a number so near it, on the same side
of every boundary between H32 values, that RNE gives the nearest H32 value. Fixed point with 256 fraction bits; the
series errors stay below 2^-240. -/

namespace Sys2Proof.Machine

/-- Fraction bits of the fixed-point work. -/
def fxBits : Nat := 256
/-- One in fixed point. -/
def fxOne : Nat := 2 ^ fxBits
/-- Natural logarithm of 2, truncated. -/
def fxLn2 : Nat := 0xb17217f7d1cf79abc9e3b39803f2f6af40f343267298b62d8a0d175b8baafa2b
/-- 2 pi, truncated. -/
def fxTau : Nat := 0x6487ed5110b4611a62633145c06e0e68948127044533e63a0105df531d89cd912

/-- Square root, rounded down, of a number below `2^512`. -/
def isqrt (n : Nat) : Nat :=
  (List.range 256).foldl (fun r i => let c := r + 2 ^ (255 - i); if c * c ≤ n then c else r) 0

/-- Exponential of a fixed-point number below 1. -/
def fxExp (y : Nat) : Nat :=
  ((List.range 70).foldl (fun (a : Nat × Nat) k => let t := a.2 * y / fxOne / (k + 1); (a.1 + t, t)) (fxOne, fxOne)).1

/-- Natural logarithm of `n / d` for `d ≤ n < 2 d`, by the series of the inverse hyperbolic tangent. -/
def fxLn (n d : Nat) : Nat :=
  let w := (n - d) * fxOne / (n + d)
  let w2 := w * w / fxOne
  2 * ((List.range 90).foldl (fun (a : Nat × Nat) k => (a.1 + a.2 / (2 * k + 1), a.2 * w2 / fxOne)) (0, w)).1

/-- Sine of a fixed-point angle from 0 to 1. -/
def fxSin (y : Nat) : Nat :=
  let y2 := y * y / fxOne
  ((List.range 40).foldl (fun (a : Int × Nat) k =>
    ((if k % 2 = 0 then a.1 + (a.2 : Int) else a.1 - (a.2 : Int)), a.2 * y2 / fxOne / ((2 * k + 2) * (2 * k + 3))))
    ((0 : Int), y)).1.toNat

/-- Cosine of a fixed-point angle from 0 to 1. -/
def fxCos (y : Nat) : Nat :=
  let y2 := y * y / fxOne
  ((List.range 40).foldl (fun (a : Int × Nat) k =>
    ((if k % 2 = 0 then a.1 + (a.2 : Int) else a.1 - (a.2 : Int)), a.2 * y2 / fxOne / ((2 * k + 1) * (2 * k + 2))))
    ((0 : Int), fxOne)).1.toNat

/-- A value that lies just above `m * 2^e` in magnitude: one more bit, set, below it. -/
def stuck (neg : Bool) (m : Nat) (e : Int) : Val := .fin neg (2 * m + 1) (e - 1)

/-- Base-2 exponential of a value (06 R214). Inputs from 128 on give a value that overflows, inputs below -200 one that
rounds to zero. -/
def vExp2 (v : Val) : Val :=
  match v with
  | .nan => .nan
  | .inf n => if n then .fin false 0 0 else .inf false
  | .fin n m e =>
    if m = 0 then .fin false 1 0
    else if 9 ≤ (Nat.log2 m : Int) + e then .fin false 1 (if n then -400 else 400)
    else
      let x := signed n (m * 2 ^ (e + fxBits).toNat)
      let i := x / (fxOne : Int)
      let f := (x % (fxOne : Int)).toNat
      if f = 0 then .fin false 1 i else stuck false (fxExp (f * fxLn2 / fxOne)) (i - fxBits)

/-- Base-2 logarithm of a value (06 R214). -/
def vLog2 (v : Val) : Val :=
  match v with
  | .nan => .nan
  | .inf n => if n then .nan else .inf false
  | .fin n m e =>
    if m = 0 then .inf true
    else if n then .nan
    else
      let k := Nat.log2 m
      let i := (k : Int) + e
      if m = 2 ^ k then .fin (decide (i < 0)) i.natAbs 0
      else
        let x := i * (fxOne : Int) + (fxLn m (2 ^ k) * fxOne / fxLn2 : Nat)
        if 0 ≤ x then stuck false x.toNat (-fxBits) else stuck true ((-x).toNat - 1) (-fxBits)

/-- `1 / x` (06 R214). -/
def vRcp (v : Val) : Val :=
  match v with
  | .nan => .nan
  | .inf n => .fin n 0 0
  | .fin n m e =>
    if m = 0 then .inf n
    else
      let q := 2 ^ 128 / m
      if q * m = 2 ^ 128 then .fin n q (-e - 128) else stuck n q (-e - 128)

/-- `1 / sqrt x` (06 R214). -/
def vRsqrt (v : Val) : Val :=
  match v with
  | .nan => .nan
  | .inf n => if n then .nan else .fin false 0 0
  | .fin n m e =>
    if m = 0 then .inf n
    else if n then .nan
    else
      let m' := if e % 2 = 0 then m else 2 * m
      let e' := if e % 2 = 0 then e else e - 1
      let q := isqrt (2 ^ 256 / m')
      if q * q * m' = 2 ^ 256 then .fin false q (-(e' / 2) - 128) else stuck false q (-(e' / 2) - 128)

/-- Fraction of `|x|` in fixed point (06 R215: reduction modulo 1 is exact). -/
def fxTurn (m : Nat) (e : Int) : Nat :=
  if 0 ≤ e then 0 else if -fxBits ≤ e then m * 2 ^ (e + fxBits).toNat % fxOne else 0

/-- Sine of `2 pi a` for a fixed-point `a` strictly between 0 and 1/4. -/
def sinTurn (a : Nat) (neg : Bool) : Val :=
  if 8 * a ≤ fxOne then stuck neg (fxSin (a * fxTau / fxOne)) (-fxBits)
  else stuck neg (fxCos ((fxOne / 4 - a) * fxTau / fxOne)) (-fxBits)

/-- Cosine of `2 pi a` for a fixed-point `a` strictly between 0 and 1/4; below 2^-60 it is just under 1. -/
def cosTurn (a : Nat) (neg : Bool) : Val :=
  if a < 2 ^ 196 then .fin neg (2 ^ 200 - 1) (-200)
  else if 8 * a ≤ fxOne then stuck neg (fxCos (a * fxTau / fxOne)) (-fxBits)
  else stuck neg (fxSin ((fxOne / 4 - a) * fxTau / fxOne)) (-fxBits)

/-- `sin(2 pi x)` (06 R215). -/
def vSint (v : Val) : Val :=
  match v with
  | .nan => .nan
  | .inf _ => .nan
  | .fin n m e =>
    let a := fxTurn m e
    let half := decide (fxOne ≤ 2 * a)
    let b := if half then a - fxOne / 2 else a
    if b = 0 then .fin n 0 0
    else if 4 * b = fxOne then .fin (n != half) 1 0
    else if 4 * b < fxOne then sinTurn b (n != half)
    else sinTurn (fxOne / 2 - b) (n != half)

/-- `cos(2 pi x)` (06 R215). -/
def vCost (v : Val) : Val :=
  match v with
  | .nan => .nan
  | .inf _ => .nan
  | .fin _ m e =>
    let a := fxTurn m e
    let b := if fxOne < 2 * a then fxOne - a else a
    if b = 0 then .fin false 1 0
    else if 2 * b = fxOne then .fin true 1 0
    else if 4 * b = fxOne then .fin false 0 0
    else if 4 * b < fxOne then cosTurn b false
    else cosTurn (fxOne / 2 - b) true

end Sys2Proof.Machine
end

