-- ==== Sys2Proof/Machine/Matrix.lean ====
section
/-! DEFINITION. The matrix slot (05; 07 R239, R240, R657): operand descriptors, MMA and its K-groups, the slots and
their drains, the fault record. -/

namespace Sys2Proof.Machine

/-! ### Slots -/

/-- Running sum at (r, c) of a slot. -/
def Core.accAt (x : Core) (slot r c : Nat) : BitVec 32 := sget 0 x.acc (65536 * slot + 256 * r + c)
/-- A region of a slot written from position (r0, c0). -/
def Core.setAcc (x : Core) (slot r0 c0 rows cols : Nat) (f : Nat → Nat → BitVec 32) : Core :=
  { x with acc := (List.range rows).foldl (fun a r =>
      sput 0 a (65536 * slot + 256 * (r0 + r) + c0) ((List.range cols).map (f r))) x.acc }
/-- Every element of a slot set to +0 (05 R177 SLOT_CLEAR). -/
def Core.clearAcc (x : Core) (slot : Nat) : Core := { x with acc := sclear x.acc (65536 * slot) 65536 }
/-- Context of a slot. -/
def Core.ctxAt (x : Core) (slot : Nat) : SlotCtx := x.ctx.getD slot SlotCtx.zero
/-- Context of a slot changed. -/
def Core.onCtx (x : Core) (slot : Nat) (f : SlotCtx → SlotCtx) : Core := { x with ctx := modAt x.ctx slot f }
/-- GROUPS to 0, SPILL_BOUND unbound, no spill made since (05 R170, R172, R178). -/
def SlotCtx.fresh (x : SlotCtx) : SlotCtx := { x with groups := 0, spillBound := none, spilled := false }

/-- Whether accumulator words of a region hold a double-bit error (10 R330). -/
def State.accBad (s : State) (t c slot rows cols : Nat) : Bool :=
  (List.range rows).any fun r => s.sramBad (accAddr t c slot (1024 * r)) (4 * cols)

/-- Accumulator words written: those wholly inside each row of a region become clean (10 R330). -/
def State.cleanAcc (s : State) (t c slot rows cols : Nat) : State :=
  (List.range rows).foldl (fun st r => st.cleanWords (accAddr t c slot (1024 * r)) (4 * cols)) s

/-- Every element of a slot set to +0, its words clean. -/
def State.clearSlot (s : State) (t c slot : Nat) (f : SlotCtx → SlotCtx) : State :=
  (s.cleanWords (accAddr t c slot 0) 0x40000).onCore t c fun x => (x.clearAcc slot).onCtx slot f

/-- The random bits of a kernel's roundings, by its seed and step, or by the rollout it runs for (04 R132; 15 R550). -/
def Kernel.rng (k : Kernel) : Rng := { key := srKey k.seed.toNat k.step.toNat, seed := k.seed.toNat, roll := k.roll }

/-! ### The matrix queue -/

/-- What a matrix instruction sees: its kernel, its queue item, its core. -/
structure MIn where
  k : Kernel
  q : QItem
  c : Core
  deriving DecidableEq, Repr

/-- Slot field of a matrix instruction. -/
def MIn.slot (m : MIn) : Nat := wf m.q.word 9 6

/-- Runs `f` on the front of the matrix queue when its opcode is `op`. A fenced core's instructions end without effect
(05 R193) (DESIGN CHOICE, log entry 1). -/
def State.matRow (s : State) (t p op : Nat) (f : MIn → State → State) : State :=
  match s.path? t p, s.core? t p, s.kernelOn t with
  | some x, some c, some k =>
    match x.mq with
    | [] => s
    | q :: _ =>
      if !s.issues t || !x.active || wf q.word 5 0 != op || s.blocked 2 t p then s
      else if c.fenced then s.popM t p
      else f { k := k, q := q, c := c } s
  | _, _, _ => s

/-- Waits for a slot: an instruction on a slot goes on when the core holds it and no earlier MMA on it is in flight
(05 R176, R177). -/
def MIn.slotFree (m : MIn) : Bool := !m.c.given.getD m.slot false && m.c.runs.all fun r => r.slot != m.slot

/-- Effective descriptor offset of a descriptor-form instruction (07 R240). -/
def MIn.desc (m : MIn) : Nat := m.q.eff (wf m.q.word 39 14)

/-! ### ODSET (07 R239; 05 R165) -/

/-- ODSET.A: base, lines, layout and stride of an operand descriptor. -/
def odsetAStep (t p : Nat) (s : State) : State :=
  s.matRow t p 0x02 fun m s =>
    let w := m.q.word
    let b := m.q.eff (wf w 31 15 * 64)
    if b % 64 ≠ 0 then s.faultM t p kfOperandRange m.q.bundle
    else (s.popM t p).onCore t p fun c =>
      { c with ods := modAt c.ods (wf w 10 6) fun o =>
          { o with base := b, lines := wf w 40 32, strided := bitOf w.toNat 41, stride := wf w 58 42 * 64 } }

def execOdsetA (t p : Nat) (s : State) : Host.Outcome State Fault Refusal := .next (odsetAStep t p s)

/-- ODSET.S: scale base and stride of an operand descriptor. -/
def odsetSStep (t p : Nat) (s : State) : State :=
  s.matRow t p 0x03 fun m s =>
    let w := m.q.word
    (s.popM t p).onCore t p fun c =>
      { c with ods := modAt c.ods (wf w 10 6) fun o =>
          { o with scaleBase := m.q.eff (wf w 37 15), scaleStride := wf w 60 38 } }

def execOdsetS (t p : Nat) (s : State) : Host.Outcome State Fault Refusal := .next (odsetSStep t p s)

/-! ### MMA (05 R166 to R173) -/

/-- The spill interval that an MMA on a slot must name at its issue: that of the newest MMA in flight on it, else
SPILL_BOUND (05 R172). -/
def Core.boundAt (x : Core) (slot : Nat) : Option Nat :=
  match (x.runs.filter fun r => r.slot == slot).getLast? with
  | some r => some r.spill
  | none => (x.ctxAt slot).spillBound

/-- The fault an MMA raises at issue, if any (05 R169, R166, R172) (DEDUCED, log entry 53). -/
def MIn.mmaFault (m : MIn) : Option Nat :=
  let w := m.q.word
  if 3 < wf w 42 40 || 1 < wf w 44 43 then some kfBadFormat
  else
    match fmtOf (wf w 42 40) with
    | none => some kfBadFormat
    | some f =>
      let a := m.c.ods.getD (wf w 14 10) OpDesc.zero
      let b := m.c.ods.getD (wf w 19 15) OpDesc.zero
      if !a.fits f (wf w 39 20) || !b.fits f (wf w 39 20) then some kfOperandRange
      else
        match m.c.boundAt m.slot with
        | some n => if !bitOf w.toNat 61 && n != wf w 60 45 then some kfSpillMismatch else none
        | none => none

/-- MMA: issues when the core holds its slot and fewer than four are in flight; its K-groups follow as K_GROUP. -/
def mmaStep (t p : Nat) (s : State) : State :=
  s.matRow t p 0x01 fun m s =>
    let w := m.q.word
    if m.c.given.getD m.slot false || decide (4 ≤ m.c.runs.length) then s
    else
      match m.mmaFault with
      | some f => s.faultM t p f m.q.bundle
      | none =>
        let run : MmaRun :=
          { seq := m.q.seq, bundle := m.q.bundle, kid := m.k.kid, slot := m.slot,
            oda := m.c.ods.getD (wf w 14 10) OpDesc.zero, odb := m.c.ods.getD (wf w 19 15) OpDesc.zero,
            kExt := wf w 39 20, fmt := wf w 42 40, rmode := wf w 44 43, spill := wf w 60 45,
            clear := bitOf w.toNat 61, j := 0 }
        (s.popM t p).onCore t p fun c => { c with runs := c.runs ++ [run] }

def execMma (t p : Nat) (s : State) : Host.Outcome State Fault Refusal := .next (mmaStep t p s)

/-- The slot served next: round-robin by slot number among the MMAs in flight (05 R173). -/
def nextSlot (rr : Nat) (runs : List MmaRun) : Option Nat :=
  ((List.range 16).map fun i => (rr + 1 + i) % 16).find? fun n => runs.any fun r => r.slot == n

/-- K-groups of an MMA. -/
def MmaRun.groups (r : MmaRun) : Nat := ceilDiv r.kExt (if r.fmt = 3 then 16 else 32)

/-- Whether an MMA spills in its `n` K-groups from GROUPS = `g` on (05 R170). -/
def MmaRun.spills (r : MmaRun) (g n : Nat) : Bool := r.spill != 0 && decide (r.spill ≤ g % r.spill + n)

/-- Whether a slot's spill is in progress: it has spilled since its last clear, load or drain, or an MMA on it that has
begun will spill (05 R178, R180) (DEDUCED, log entry 51). -/
def Core.spilling (x : Core) (slot : Nat) : Bool :=
  (x.ctxAt slot).spilled || x.runs.any fun r =>
    r.slot == slot && decide (0 < r.j) && r.spills (x.ctxAt slot).groups.toNat (r.groups - r.j)

/-- Whether the MMA spills, and into a bad place (05 R180). Checked before its first K-group, GROUPS as it stands
then (DEDUCED, log entry 51). -/
def State.spillBad (s : State) (t p : Nat) (r : MmaRun) (x : SlotCtx) : Bool :=
  r.spills (if r.clear then 0 else x.groups.toNat) r.groups &&
    (x.x64Addr % 4096 != 0 || decide (cisBytes < x.x64Addr + 0x80000) ||
      (List.range 16).any fun c => match s.core? t c with
        | none => false
        | some y => (List.range 16).any fun n => !(c == p && n == r.slot) && y.spilling n &&
            overlaps (y.ctxAt n).x64Addr 0x80000 x.x64Addr 0x80000)

/-- Whether a K-group reads a word with a double-bit error (10 R330). -/
def State.groupBad (s : State) (t p : Nat) (r : MmaRun) (f : Fmt) (lo hi : Nat) : Bool :=
  ((r.oda.ranges f lo hi) ++ (r.odb.ranges f lo hi)).any (fun g => s.sramBad (basAddr t p g.1) g.2) ||
    s.accBad t p r.slot r.oda.lines r.odb.lines ||
    (match (s.core? t p).map (fun c => c.ctxAt r.slot) with
      | some x => r.spill != 0 && (x.groups.toNat + 1) % r.spill == 0 && x.spilled &&
          (List.range r.oda.lines).any fun i => s.sramBad (cisAddr t (x.x64Addr + 2048 * i)) (8 * r.odb.lines)
      | none => false)

/-- Elements along K of an MMA's next K-group (05 R171). -/
def MmaRun.width (r : MmaRun) (f : Fmt) : Nat := min (groupSize f) (r.kExt - groupSize f * r.j)

/-- Operand elements of the next K-group: row `i` of A and column `j` of B at its K index `k`. -/
def State.elemA (s : State) (t p : Nat) (r : MmaRun) (f : Fmt) (i k : Nat) : Val :=
  s.panelElem t p r.oda f i (groupSize f * r.j + k)
def State.elemB (s : State) (t p : Nat) (r : MmaRun) (f : Fmt) (j k : Nat) : Val :=
  s.panelElem t p r.odb f j (groupSize f * r.j + k)

/-- Products of the next K-group for element (row, col) of the output tile (04 R146). -/
def State.groupProds (s : State) (t p : Nat) (r : MmaRun) (f : Fmt) (row col : Nat) : List Val :=
  (List.range (r.width f)).map fun k => (s.elemA t p r f row k).mul (s.elemB t p r f col k)

/-- What the faults of a K-group add to the window sum of an element (DESIGN CHOICE, log entry 124). -/
def faultErr (faults : List ArrayFault) (row col : Nat) : Int :=
  (faults.map fun x => match x with
    | .sum i j e => if i = row ∧ j = col then e else 0
    | .round _ _ => 0).sum

/-- Whether the two rounding units disagree on an element of the output tile (05 R191). -/
def MmaRun.roundsApart (r : MmaRun) (faults : List ArrayFault) : Bool :=
  faults.any fun x => match x with
    | .sum _ _ _ => false
    | .round i j => decide (i < r.oda.lines) && decide (j < r.odb.lines)

/-- The outcome of the two checks of a K-group: a row or column sum differs from its prediction, or the rounding units
disagree (05 R190, R191; DESIGN CHOICE, log entry 124). -/
def State.mismatch (s : State) (t p : Nat) (r : MmaRun) (f : Fmt) (faults : List ArrayFault) : Bool :=
  checksumDiffers r.oda.lines r.odb.lines (r.width f) (s.elemA t p r f) (s.elemB t p r f) (s.groupProds t p r f)
    (faultErr faults) || r.roundsApart faults

/-- Running sum after one K-group at (r, c) of the output tile (04 R146). A fault that the checks let pass stands in it
(DESIGN CHOICE, log entry 124). -/
def State.groupElem (s : State) (t p : Nat) (k : Kernel) (r : MmaRun) (f : Fmt) (x : SlotCtx) (faults : List ArrayFault)
    (acc : BitVec 32) (row col : Nat) : BitVec 32 :=
  let mode := if r.rmode = 1 then RMode.sr else .rne
  let rnd := if r.rmode = 1 then
      k.rng.bits (x.kgBase.toNat + x.groups.toNat) (x.colBase.toNat + col) (x.rowBase.toNat + row) x.tensorId.toNat
    else 0
  dotGroup (s.groupProds t p r f row col) (faultErr faults row col) acc mode rnd

/-- A spill of the output tile of an MMA into its slot's buffer (05 R178; 04 R154). -/
def State.spillSlot (s : State) (t p : Nat) (r : MmaRun) : State :=
  match s.core? t p with
  | none => s
  | some c =>
    let x := c.ctxAt r.slot
    let s1 := (List.range r.oda.lines).foldl (fun st row =>
      let a := cisAddr t (x.x64Addr + 2048 * row)
      let bs := (List.range r.odb.lines).flatMap fun col =>
        let v := c.accAt r.slot row col
        let w := if x.spilled then xAdd (BitVec.ofNat 64 (s.numAt (a + 8 * col) 8)) (toX (hval v)) else toX (hval v)
        toLE 8 w.toNat
      (st.store 1 a bs).1) s
    s1.onCore t p fun y =>
      (y.setAcc r.slot 0 0 r.oda.lines r.odb.lines fun _ _ => 0).onCtx r.slot fun z => { z with spilled := true }

/-- A K-group's sums written into the slot, GROUPS counted, a spill when its turn comes, and the MMA ended with its last
group; its first binds SPILL_BOUND (05 R170, R172, R192, R179). -/
def State.groupWrite (s : State) (t p : Nat) (k : Kernel) (r : MmaRun) (f : Fmt) (faults : List ArrayFault) : State :=
  match s.core? t p with
  | none => s
  | some c =>
    let x := c.ctxAt r.slot
    let done := decide (r.groups ≤ r.j + 1)
    let s1 := s.onCore t p fun y =>
      let z := (y.setAcc r.slot 0 0 r.oda.lines r.odb.lines fun row col =>
        s.groupElem t p k r f x faults (c.accAt r.slot row col) row col).onCtx r.slot fun u =>
          { u with groups := u.groups + 1, spillBound := if r.j = 0 then some r.spill else u.spillBound }
      { z with rr := r.slot
               runs := if done then dropFirst (fun u => u.slot == r.slot) z.runs
                       else modFirst (fun u => u.slot == r.slot) (fun u => { u with j := u.j + 1 }) z.runs }
    if r.spill ≠ 0 && (x.groups.toNat + 1) % r.spill == 0 then s1.spillSlot t p r else s1

/-- A mismatch: one CHECKSUM_FAULT, and the fence at the third within 3,600 s of the first (05 R192 to R195). -/
def State.checksumFault (s : State) (t p : Nat) (r : MmaRun) : State :=
  match s.core? t p with
  | none => s
  | some c =>
    let times := (s.clk.nowUs :: c.faultTimes).take 3
    let fence := decide (times.length = 3) && decide (s.clk.nowUs ≤ times.getD 2 0 + 3600000000)
    let s1 := s.onCore t p fun y =>
      { y with checksumFaults := sat32 (y.checksumFaults + 1), faultTimes := times, lastFaultMs := s.timeMs,
               fenced := y.fenced || fence, runs := if fence then [] else y.runs }
    if fence then s1.kfaultOf r.kid t p kfChecksumFence r.bundle 0 else s1

/-- What an MMA's first K-group starts from: CLEAR sets the slot to +0 and restarts its count (05 R168, R170). The slot
itself changes only when the group passes its checks (05 R192, R193). -/
def State.groupStart (s : State) (t p : Nat) (r : MmaRun) : State :=
  if r.j = 0 && r.clear then s.clearSlot t p r.slot SlotCtx.fresh else s

/-- K_GROUP: the array does the next K-group of core `p`; on a mismatch its sums are discarded and it runs again
(05 R146, R173, R190 to R193). -/
def kGroupStep (t p : Nat) (faults : List ArrayFault) (s : State) : State :=
  match s.core? t p, s.kernelOn t with
  | some c, some k =>
    if c.fenced then s
    else
      match (nextSlot c.rr c.runs).bind fun n => c.runs.find? fun r => r.slot == n with
      | none => s
      | some r =>
        match fmtOf r.fmt with
        | none => s
        | some f =>
          let g := groupSize f
          let drop := fun (st : State) => st.onCore t p fun y => { y with runs := dropFirst (fun u => u.slot == r.slot) y.runs }
          if r.j = 0 && s.spillBad t p r (c.ctxAt r.slot) then (drop s).kfaultOf r.kid t p kfSpillRange r.bundle 0
          else
            let s1 := s.groupStart t p r
            if s1.groupBad t p r f (g * r.j) (min r.kExt (g * (r.j + 1))) then
              (drop s).kfaultOf r.kid t p kfEcc r.bundle 0
            else if s1.mismatch t p r f faults then s.checksumFault t p r else s1.groupWrite t p k r f faults
  | _, _ => s

def execKGroup (t p : Nat) (faults : List ArrayFault) (s : State) : Host.Outcome State Fault Refusal :=
  .next (kGroupStep t p faults s)

/-! ### Descriptor-form instructions -/

/-- Reads the 32 bytes a descriptor-form instruction names, or raises the fault of R658 or R330. -/
def MIn.readDesc (m : MIn) (s : State) (t p : Nat) (f : Bytes → State → State) : State :=
  let o := m.desc
  if !inMem o 32 32 cisBytes then s.faultM t p kfCisternRange m.q.bundle
  else if s.sramBad (cisAddr t o) 32 then s.faultM t p kfEcc m.q.bundle
  else f (s.bytesAt (cisAddr t o) 32) s

/-- SLOTCTX: the slot context record into the slot's context (05 R170; 07 R657). -/
def slotctxStep (t p : Nat) (s : State) : State :=
  s.matRow t p 0x04 fun m s =>
    if !m.slotFree then s
    else m.readDesc s t p fun b s =>
      if 2 ^ 26 ≤ fld b 16 4 || !zeroAt b 20 12 then s.faultM t p kfBadParamDrain m.q.bundle
      else (s.popM t p).onCore t p fun c => c.onCtx m.slot fun x =>
        { x with tensorId := BitVec.ofNat 32 (fld b 0 4), rowBase := BitVec.ofNat 32 (fld b 4 4),
                 colBase := BitVec.ofNat 32 (fld b 8 4), kgBase := BitVec.ofNat 32 (fld b 12 4),
                 x64Addr := fld b 16 4 }

def execSlotctx (t p : Nat) (s : State) : Host.Outcome State Fault Refusal := .next (slotctxStep t p s)

/-- SLOT_CLEAR: every element +0, the count restarted (05 R170, R177). -/
def slotClearStep (t p : Nat) (s : State) : State :=
  s.matRow t p 0x05 fun m s =>
    if !m.slotFree then s
    else (s.popM t p).clearSlot t p m.slot SlotCtx.fresh

def execSlotClear (t p : Nat) (s : State) : Host.Outcome State Fault Refusal := .next (slotClearStep t p s)

/-- Address of an offset in the basin of pair `p` or the cistern. -/
def unitAddr (t p : Nat) (cis : Bool) (off : Nat) : Nat := if cis then cisAddr t off else basAddr t p off
/-- Size of that memory. -/
def unitSize (cis : Bool) : Nat := if cis then cisBytes else basBytes
/-- Its range fault for a matrix-slot instruction (07 R658). -/
def rangeFault (cis : Bool) : Nat := if cis then kfCisternRange else kfOperandRange

/-- Whether rows of `n` bytes at a pitch lie in a memory. -/
def rowsFit (off pitch rows n size : Nat) : Bool := (List.range rows).all fun r => decide (off + r * pitch + n ≤ size)

/-- Consecutive pieces that adjoin, joined. -/
def joinPieces : List (Nat × Bytes) → List (Nat × Bytes)
  | [] => []
  | w :: r =>
    match joinPieces r with
    | [] => [w]
    | x :: y => if w.1 + w.2.length = x.1 then (w.1, w.2 ++ x.2) :: y else w :: x :: y

/-- Writes pieces into basin or cistern through the write port. A piece on locked basin bytes waits and raises
BASIN_HAZARD (05 R167); one that changes part of a word with a double-bit error ends the kernel (10 R330); else `done` goes
on from the written state. -/
def State.unitWrite (s : State) (t p bundle : Nat) (cis : Bool) (ws : List (Nat × Bytes)) (done : State → State) : State :=
  match (if cis then none else ws.findSome? fun w => s.lockedBy t p w.1 w.2.length) with
  | some _ => s.kfault t p kfBasinHazard bundle
  | none =>
    if (joinPieces ws).any fun w => s.partBad (unitAddr t p cis w.1) w.2.length then s.kfault t p kfEcc bundle
    else done ((joinPieces ws).foldl (fun st w => (st.store 1 (unitAddr t p cis w.1) w.2).1) s)

/-- SLOT_LOAD: H32 bits or exactly widened S16 into a region (05 R174; 04 R123). -/
def slotLoadStep (t p : Nat) (s : State) : State :=
  s.matRow t p 0x06 fun m s =>
    if !m.slotFree then s
    else m.readDesc s t p fun b s =>
      let d := slotAcc b
      let n := if d.fmt = 4 then 4 else 2
      if !accOk .load b then s.faultM t p kfBadParamDrain m.q.bundle
      else if !rowsFit d.addr d.pitch d.rows (n * d.cols) (unitSize d.dest) then
        s.faultM t p (rangeFault d.dest) m.q.bundle
      else if (List.range d.rows).any (fun r => s.sramBad (unitAddr t p d.dest (d.addr + r * d.pitch)) (n * d.cols)) then
        s.faultM t p kfEcc m.q.bundle
      else ((s.popM t p).cleanAcc t p m.slot d.rows d.cols).onCore t p fun c =>
        (c.setAcc m.slot 0 0 d.rows d.cols fun r q =>
          let v := s.numAt (unitAddr t p d.dest (d.addr + r * d.pitch + n * q)) n
          if d.fmt = 4 then BitVec.ofNat 32 v else toH (decodeF .s16 v)).onCtx m.slot SlotCtx.fresh

def execSlotLoad (t p : Nat) (s : State) : Host.Outcome State Fault Refusal := .next (slotLoadStep t p s)

/-- SLOT_STORE: the raw H32 bits of a region (05 slot instructions). -/
def slotStoreStep (t p : Nat) (s : State) : State :=
  s.matRow t p 0x07 fun m s =>
    if !m.slotFree then s
    else m.readDesc s t p fun b s =>
      let d := slotAcc b
      if !accOk .store b then s.faultM t p kfBadParamDrain m.q.bundle
      else if !rowsFit d.addr d.pitch d.rows (4 * d.cols) (unitSize d.dest) then
        s.faultM t p (rangeFault d.dest) m.q.bundle
      else if s.accBad t p m.slot d.rows d.cols then s.faultM t p kfEcc m.q.bundle
      else
        let ws := (List.range d.rows).map fun r =>
          (d.addr + r * d.pitch, (List.range d.cols).flatMap fun q => toLE 4 (m.c.accAt m.slot r q).toNat)
        s.unitWrite t p m.q.bundle d.dest ws fun st => st.popM t p

def execSlotStore (t p : Nat) (s : State) : Host.Outcome State Fault Refusal := .next (slotStoreStep t p s)

/-! ### Drains (05 R181 to R187) -/

/-- Larger of two H32 values, +0 over -0 (05 R184). -/
def hMaxv (a b : BitVec 32) : BitVec 32 :=
  if (hval a).lt (hval b) then b
  else if (hval b).lt (hval a) then a
  else if a.toNat / 2 ^ 31 = 1 then b else a

/-- Row maximum and sum of a row of H32 values (05 R183, R184). -/
def rowStats (expSum : Bool) (xs : List (BitVec 32)) : BitVec 32 × BitVec 32 :=
  let m := xs.foldl hMaxv (xs.headD 0)
  if xs.any (fun x => (hval x).isNan) then (0x7FC00000, 0x7FC00000)
  else if !expSum then (m, treeFold hAddFlush 0 xs)
  else if m = 0xFF800000 then (m, 0)
  else if m = 0x7F800000 then (m, treeFold hAddFlush 0 (xs.map fun x => if x = 0x7F800000 then 0x3F800000 else 0))
  else (m, treeFold hAddFlush 0 (xs.map fun x => toH (vExp2 (hval (hSub x m)))))

/-- The value of an element that enters its output conversion, as an exact value, and whether it is an X64 sum: the
running sum; with SPILLED the X64 sum under RTO, where the buffer of a slot that has not spilled is +0 (04 R154); for DRAIN_ADD the node's H32 sum (05 R187)
(DEDUCED, log entry 54). -/
def State.drainVal (s : State) (t : Nat) (c : Core) (slot : Nat) (d : SlotAcc) (add : Bool) (r q : Nat) : Val × Bool :=
  let acc := hval (c.accAt slot r q)
  let v := if d.spilled then
      xval (BitVec.ofNat 64 (conv .x64 .rto 0 false
        ((if (c.ctxAt slot).spilled then
            xval (BitVec.ofNat 64 (s.numAt (cisAddr t ((c.ctxAt slot).x64Addr + 2048 * r + 8 * q)) 8))
          else .fin false 0 0).add acc)).code)
    else acc
  if add then
    (hval (hAddFlush (hFlush (toH v)) (BitVec.ofNat 32 (s.numAt (cisAddr t (d.addSrc + 1024 * r + 4 * q)) 4))), false)
  else (v, d.spilled)

/-- Random bits of an output conversion (04 R132). -/
def drainRnd (g : Rng) (x : SlotCtx) (mode : RMode) (r q : Nat) : Nat :=
  if mode = .sr then g.bits 0xFFFFFFFE (x.colBase.toNat + q) (x.rowBase.toNat + r) x.tensorId.toNat else 0

/-- One drained row: its element bytes, its scale bytes, what it adds to the record (DEDUCED, log entry 54). -/
def drainRow (f : Fmt) (mode : RMode) (d : SlotAcc) (g : Rng) (x : SlotCtx) (r : Nat) (vs : List (Val × Bool)) :
    Bytes × Bytes × RecAdd :=
  if f.isBlock then
    let blks := (List.range (vs.length / 32)).map fun kb =>
      let xs := (vs.drop (32 * kb)).take 32
      blockConv f mode d.sat d.scaling ((xs.headD (.nan, false)).2) d.e8 (xs.map fun v => some v.1)
        ((List.range 32).map fun i => drainRnd g x mode r (32 * kb + i))
    (packCodes f (blks.flatMap fun b => b.elems.map (·.code)), blks.map fun b => BitVec.ofNat 8 b.e8,
     (blks.map (·.record)).foldl RecAdd.join RecAdd.zero)
  else
    let codes := vs.zipIdx.map fun v =>
      let y := (conv f mode (drainRnd g x mode r v.2) d.sat v.1.1).code
      if f = .h32 then (hFlush (BitVec.ofNat 32 y)).toNat else y
    (packCodes f codes, [], RecAdd.zero)

/-- The first fault of a drain, if any (05 R181; 07 R657, R658; 10 R330) (DEDUCED, log entry 54). -/
def State.drainFault (s : State) (t p : Nat) (m : MIn) (d : SlotAcc) (add : Bool) (ok : Bool) : Option Nat :=
  match fmtOf d.fmt with
  | none => some kfBadParamDrain
  | some f =>
    let n := elemBytes f d.cols
    if !ok || (f.isBlock && d.cols % 32 != 0) then some kfBadParamDrain
    else if d.addr % 64 != 0 || (decide (1 < d.rows) && d.pitch % 64 != 0) ||
        !rowsFit d.addr d.pitch d.rows n (unitSize d.dest) ||
        (f.isBlock && decide (unitSize d.dest < d.scaleAddr + d.rows * (d.cols / 32))) then some (rangeFault d.dest)
    else if (f.isBlock && decide (cisBytes < d.record + 16)) ||
        (d.stats != 0 && decide (cisBytes < d.statsAddr + 8 * d.rows)) ||
        (add && !rowsFit d.addSrc 1024 d.rows (4 * d.cols) cisBytes) ||
        (d.spilled && (m.c.ctxAt m.slot).spilled && ((m.c.ctxAt m.slot).x64Addr % 4096 != 0 ||
          !rowsFit (m.c.ctxAt m.slot).x64Addr 2048 d.rows (8 * d.cols) cisBytes)) then some kfCisternRange
    else if s.accBad t p m.slot d.rows d.cols || (f.isBlock && s.sramBad (cisAddr t d.record) 16) ||
        (add && (List.range d.rows).any fun r => s.sramBad (cisAddr t (d.addSrc + 1024 * r)) (4 * d.cols)) ||
        (d.stats != 0 && s.partBad (cisAddr t d.statsAddr) (8 * d.rows)) ||
        (d.spilled && (m.c.ctxAt m.slot).spilled && (List.range d.rows).any fun r =>
          s.sramBad (cisAddr t ((m.c.ctxAt m.slot).x64Addr + 2048 * r)) (8 * d.cols)) then some kfEcc
    else none

/-- DRAIN and DRAIN_ADD once their slot is free and their descriptor read. -/
def State.drainWork (s : State) (t p : Nat) (m : MIn) (b : Bytes) (add : Bool) : State :=
  let d := slotAcc b
  match s.drainFault t p m d add (accOk (if add then .drainAdd else .drain) b), fmtOf d.fmt, rmodeOf d.omode with
  | some c, _, _ => s.faultM t p c m.q.bundle
  | none, some f, some mode =>
    let x := m.c.ctxAt m.slot
    let vals := (List.range d.rows).map fun r => (List.range d.cols).map fun q => s.drainVal t m.c m.slot d add r q
    let rows := vals.zipIdx.map fun v => drainRow f mode d m.k.rng x v.2 v.1
    let ws := rows.zipIdx.map (fun y => (d.addr + y.2 * d.pitch, y.1.1)) ++
      (if f.isBlock then [(d.scaleAddr, rows.flatMap fun y => y.2.1)] else [])
    let rec_ := (rows.map fun y => y.2.2).foldl RecAdd.join RecAdd.zero
    let stats := vals.map fun row => rowStats (d.stats == 2) (row.map fun v =>
      if d.spilled && !add then hFlush (toH v.1) else toH v.1)
    let nf := (vals.map fun row => (row.filter fun v => !v.1.isFin).length).sum
    s.unitWrite t p m.q.bundle d.dest ws fun s1 =>
      let s2 := if f.isBlock then
          (s1.store 1 (cisAddr t d.record) (rec_.apply (s1.bytesAt (cisAddr t d.record) 16))).1 else s1
      let s3 := if d.stats = 0 then s2
        else (s2.store 1 (cisAddr t d.statsAddr) (stats.flatMap fun v => toLE 4 v.1.toNat ++ toLE 4 v.2.toNat)).1
      ((s3.popM t p).clearSlot t p m.slot SlotCtx.fresh).onCore t p fun c =>
        { c with nonfiniteOut := sat32 (c.nonfiniteOut + nf) }
  | none, _, _ => s.faultM t p kfBadParamDrain m.q.bundle

/-- DRAIN (05 R181). -/
def drainStep (t p : Nat) (s : State) : State :=
  s.matRow t p 0x08 fun m s => if !m.slotFree then s else m.readDesc s t p fun b s => s.drainWork t p m b false

def execDrain (t p : Nat) (s : State) : Host.Outcome State Fault Refusal := .next (drainStep t p s)

/-- DRAIN_ADD (05 R187). -/
def drainAddStep (t p : Nat) (s : State) : State :=
  s.matRow t p 0x09 fun m s => if !m.slotFree then s else m.readDesc s t p fun b s => s.drainWork t p m b true

def execDrainAdd (t p : Nat) (s : State) : Host.Outcome State Fault Refusal := .next (drainAddStep t p s)

/-! ### Handover and fault record -/

/-- SLOT_GIVE: passes the slot to the vector engine (05 R175). -/
def slotGiveStep (t p : Nat) (s : State) : State :=
  s.matRow t p 0x0A fun m s =>
    if !m.slotFree then s else (s.popM t p).onCore t p fun c => { c with given := modAt c.given m.slot fun _ => true }

def execSlotGive (t p : Nat) (s : State) : Host.Outcome State Fault Refusal := .next (slotGiveStep t p s)

/-- SLOT_TAKE: waits until the vector engine has returned the slot (05 R176). -/
def slotTakeStep (t p : Nat) (s : State) : State :=
  s.matRow t p 0x0B fun m s => if m.c.given.getD m.slot false then s else s.popM t p

def execSlotTake (t p : Nat) (s : State) : Host.Outcome State Fault Refusal := .next (slotTakeStep t p s)

/-- The 32 bytes of a core's fault record (05 R195). -/
def faultRecord (t p nowUs : Nat) (c : Core) : Bytes :=
  toLE 4 c.checksumFaults ++ toLE 4 ((c.faultTimes.filter fun x => decide (nowUs ≤ x + 3600000000)).length) ++
    toLE 8 c.lastFaultMs ++ toLE 4 c.nonfiniteOut ++ toLE 1 (if c.fenced then 1 else 0) ++ toLE 1 (p + 16 * t) ++ zeros 10

/-- MSTAT: writes the fault record after the core's earlier instructions (05 R195). -/
def mstatStep (t p : Nat) (s : State) : State :=
  s.matRow t p 0x0C fun m s =>
    if m.c.runs != [] then s
    else if !inMem m.desc 32 32 cisBytes then s.faultM t p kfCisternRange m.q.bundle
    else ((s.store 1 (cisAddr t m.desc) (faultRecord t p s.clk.nowUs m.c)).1).popM t p

def execMstat (t p : Nat) (s : State) : Host.Outcome State Fault Refusal := .next (mstatStep t p s)

end Sys2Proof.Machine
end

