-- ==== Sys2Proof/Machine/Vector.lean ====
section
/-! DEFINITION. The vector slot's register form (06 R199 to R223; 07 R241): arithmetic, compares, selects and masks, row
reductions, transcendental operations and conversion, and the setup instructions. -/

namespace Sys2Proof.Machine

/-- What a vector instruction sees: its kernel, its queue item, its engine. -/
structure VIn where
  k : Kernel
  q : QItem
  e : Engine
  deriving DecidableEq, Repr

/-- Single-bit errors in the registers an instruction reads are corrected and counted in REG_ECC_CE (06 R232)
(DESIGN CHOICE, log entry 109). -/
def State.regCorrect (s : State) (t p : Nat) (e : Engine) (w : BitVec 64) : State :=
  if e.regSingles w = [] then s
  else (s.onEngine t p fun _ => e.regFixed w).onGov t fun g =>
    { g with regEccCe := min (g.regEccCe + (e.regSingles w).length) 0xFFFFFFFF }

/-- Runs `f` on the front of the vector queue when its opcode is `op`; an engine being reset takes no instruction (17 R611).
A double-bit error in a register it reads ends the kernel (06 R232; 10 R330) (DESIGN CHOICE, log entries 1, 109). -/
def State.vecRow (s : State) (t p op : Nat) (f : VIn → State → State) : State :=
  match s.path? t p, s.engine? t p, s.kernelOn t with
  | some x, some e, some k =>
    match x.vq with
    | [] => s
    | q :: _ =>
      if !s.issues t || !x.active || wf q.word 7 0 != op || s.blocked 3 t p then s
      else if e.regBad q.word then s.faultV t p kfEcc q.bundle
      else f { k := k, q := q, e := e.regFixed q.word } (s.regCorrect t p e q.word)
  | _, _, _ => s

/-- Fields of the register form (07 vector slot). -/
def VIn.vd (v : VIn) : Nat := wf v.q.word 12 8
def VIn.va (v : VIn) : Nat := wf v.q.word 17 13
def VIn.moda (v : VIn) : Nat := wf v.q.word 19 18
def VIn.vb (v : VIn) : Nat := wf v.q.word 24 20
def VIn.modb (v : VIn) : Nat := wf v.q.word 26 25
def VIn.vc (v : VIn) : Nat := wf v.q.word 31 27
def VIn.modc (v : VIn) : Nat := wf v.q.word 33 32
def VIn.mask (v : VIn) : Nat := wf v.q.word 36 34
def VIn.zm (v : VIn) : Bool := bitOf v.q.word.toNat 37
def VIn.rmode (v : VIn) : Nat := wf v.q.word 39 38
def VIn.sat (v : VIn) : Bool := bitOf v.q.word.toNat 40
def VIn.packed (v : VIn) : Bool := bitOf v.q.word.toNat 41
def VIn.half (v : VIn) : Nat := wf v.q.word 42 42

/-- The fault a register-form instruction raises at issue: BAD_FORMAT for RMODE 0b11 (07 R241), BAD_LENGTH for an H32
instruction while LCOLS exceeds 32 (06 R202). -/
def VIn.regFault (v : VIn) : Option Nat :=
  if v.rmode = 3 then some kfBadFormat
  else if !v.packed && decide (32 < v.e.lcols) then some kfBadLength
  else none

/-- A register-form instruction: its fault, or the engine it leaves, taken off the queue. -/
def State.regForm (s : State) (t p op : Nat) (f : VIn → Engine) : State :=
  s.vecRow t p op fun v s =>
    match v.regFault with
    | some c => s.faultV t p c v.q.bundle
    | none => (s.popV t p).onEngine t p fun _ => f v

/-! ### Arithmetic -/

/-- Format of an element. -/
def VIn.fmt (v : VIn) : Fmt := if v.packed then .s16 else .h32
/-- Sources A, B, C of element (r, c) as codes. -/
def VIn.a (v : VIn) (r c : Nat) : Nat := v.e.src v.packed v.va v.moda r c
def VIn.b (v : VIn) (r c : Nat) : Nat := v.e.src v.packed v.vb v.modb r c
def VIn.c (v : VIn) (r c : Nat) : Nat := v.e.src v.packed v.vc v.modc r c

/-- An element-wise instruction: `g` gives the code and flags of element (r, c). -/
def VIn.elementwise (v : VIn) (g : Nat → Nat → Nat × BitVec 5) : Engine :=
  (v.e.writeElems v.packed v.vd v.mask v.zm fun r c => (g r c).1).gather
    ((v.e.live v.packed v.mask).map fun x => (g x.1 x.2).2)

/-- A correctly rounded element of an exact value (06 R209, R216; 04 R160). -/
def roundElem (f : Fmt) (v : Val) (ins : List Val) (dz : Bool) : Nat × BitVec 5 :=
  let r := arithFlags f v ins dz
  (r.1.toNat, r.2)

/-- A code without arithmetic, its NaN canonical, no flag (06 R212; 04 R123). -/
def copyElem (f : Fmt) (code : Nat) : Nat × BitVec 5 := (if (decodeF f code).isNan then f.nanCode else code, 0)

/-- Smaller or larger of two codes: canonical NaN when either is NaN, -0 below +0 (06 R210). -/
def minMax (f : Fmt) (larger : Bool) (a b : Nat) : Nat :=
  let x := decodeF f a
  let y := decodeF f b
  if x.isNan || y.isNan then f.nanCode
  else
    let aLess := x.lt y || (!y.lt x && (x.neg && !y.neg))
    if aLess != larger then a else b

/-- Sign bit of a code. -/
def signOf (f : Fmt) (code : Nat) : Bool := bitOf code (f.width - 1)
/-- A code with its sign bit set to `n`. -/
def withSignCode (f : Fmt) (n : Bool) (code : Nat) : Nat := code % 2 ^ (f.width - 1) + signCode f n

/-! ### Compares, selects, masks -/

/-- A mask-writing instruction: bit `g r c` of elements neither tail nor masked off, 0 or kept when masked off (06 R205). -/
def VIn.maskWrite (v : VIn) (g : Nat → Nat → Bool) : Engine :=
  v.e.setMask (v.vd % 8) fun r c =>
    if !v.packed && decide (32 ≤ c) then v.e.mask (v.vd % 8) r c
    else match v.e.fate v.mask v.zm r c with
      | .keep => v.e.mask (v.vd % 8) r c
      | .zero => false
      | .write => g r c

/-- A compare of two codes (06 R211): `eq`, `lt`, `un` say which relations make it true. -/
def cmpElem (f : Fmt) (eq lt gt un : Bool) (a b : Nat) : Bool :=
  let x := decodeF f a
  let y := decodeF f b
  if x.isNan || y.isNan then un else if x.lt y then lt else if y.lt x then gt else eq

/-- Source mask bit of a mask operation (07 R241). -/
def VIn.ma (v : VIn) (r c : Nat) : Bool := v.e.mask (v.va % 8) r c
def VIn.mb (v : VIn) (r c : Nat) : Bool := v.e.mask (v.vb % 8) r c

/-! ### Row reductions -/

/-- A row reduction over columns 0 to LCOLS - 1 into column 0; `node` is a tree node with its flags (06 R213). -/
def VIn.reduce (v : VIn) (node : Nat → Nat → Nat × BitVec 5) : Engine :=
  let row := fun r => treeFold (fun (x y : Nat × BitVec 5) => let z := node x.1 y.1; (z.1, x.2 ||| y.2 ||| z.2)) (0, 0)
    ((List.range v.e.lcols).map fun c => (v.a r c, (0 : BitVec 5)))
  let fin := fun (x : Nat × BitVec 5) => ((copyElem .h32 x.1).1, x.2)
  let rows := (List.range 16).filter fun r => decide (r < v.e.lrows) && v.e.mask v.mask r 0
  (v.e.setReg v.vd fun r c =>
    if c ≠ 0 then v.e.h v.vd r c
    else if v.e.lrows ≤ r then v.e.h v.vd r c
    else if v.e.mask v.mask r 0 then BitVec.ofNat 32 (fin (row r)).1
    else if v.zm then 0 else v.e.h v.vd r c).gather (rows.map fun r => (row r).2)

/-- A node of RSUM: H32 addition under RNE with its flags. -/
def sumNode (a b : Nat) : Nat × BitVec 5 :=
  let x := decodeF .h32 a
  let y := decodeF .h32 b
  roundElem .h32 (x.add y) [x, y] false

/-! ### Transcendental operations -/

/-- A transcendental element with the flags of the special-cases table (06 R214 to R217). -/
def VIn.transc (v : VIn) (g : Val → Val) (dz : Val → Bool) : Engine :=
  v.elementwise fun r c => let x := decodeF .h32 (v.a r c); roundElem .h32 (g x) [x] (dz x)

/-! ### Conversion (06 R222, R223; 07 R241) -/

/-- Random bits of a stochastic rounding at element (r, c) of the result (06 R223). -/
def VIn.rnd (v : VIn) (mode : RMode) (r c : Nat) : Nat :=
  if mode = .sr then v.k.rng.bits 0xFFFFFFFF (v.e.colBase.toNat + c) (v.e.rowBase.toNat + r) v.e.tensorId.toNat else 0

/-- CVT under a rounding mode: PACKED = 1 narrows H32 columns into 32 packed columns, PACKED = 0 widens them. Packed
column 32·HALF + c' decides tail and mask. -/
def VIn.cvt (v : VIn) (mode : RMode) : Engine :=
  let h := 32 * v.half
  let live := ((List.range 512).map fun i => (i / 32, i % 32)).filter fun x =>
    !v.e.tail x.1 (h + x.2) && v.e.mask v.mask x.1 (h + x.2)
  if v.packed then
    let el := fun r c => conv .s16 mode (v.rnd mode r (h + c)) v.sat (decodeF .h32 (v.e.cvtSrc v.va v.moda r c))
    let out := fun r pc =>
      if pc < h || h + 32 ≤ pc then (v.e.s v.vd r pc).toNat
      else match v.e.fate v.mask v.zm r pc with
        | .keep => (v.e.s v.vd r pc).toNat
        | .zero => 0
        | .write => (el r (pc - h)).code
    (v.e.setReg v.vd fun r c => pack2 (out r (2 * c)) (out r (2 * c + 1))).gather (live.map fun x => (el x.1 x.2).flags)
  else
    v.e.setReg v.vd fun r c =>
      match v.e.fate v.mask v.zm r (h + c) with
      | .keep => v.e.h v.vd r c
      | .zero => 0
      | .write => toH (decodeF .s16 (v.e.src true v.va v.moda r (h + c)))

/-- CVT as an instruction: it raises no BAD_LENGTH. -/
def cvtStep (t p : Nat) (s : State) : State :=
  s.vecRow t p 0x30 fun v s =>
    match rmodeOf v.rmode with
    | none => s.faultV t p kfBadFormat v.q.bundle
    | some mode => (s.popV t p).onEngine t p fun _ => v.cvt mode

def execCvt (t p : Nat) (s : State) : Host.Outcome State Fault Refusal := .next (cvtStep t p s)

/-! ### Setup -/

/-- SETLEN (06 R202). -/
def setlenStep (t p : Nat) (s : State) : State :=
  s.vecRow t p 0x48 fun v s =>
    let lr := wf v.q.word 12 8
    let lc := wf v.q.word 19 13
    if lr = 0 || 16 < lr || lc = 0 || 64 < lc then s.faultV t p kfBadLength v.q.bundle
    else (s.popV t p).onEngine t p fun e => { e with lrows := lr, lcols := lc }

def execSetlen (t p : Nat) (s : State) : Host.Outcome State Fault Refusal := .next (setlenStep t p s)

/-- FGET: FLAGS into bits [4:0] of a scalar register (06 R218). -/
def fgetStep (t p : Nat) (s : State) : State :=
  s.vecRow t p 0x4A fun v s =>
    (s.popV t p).onEngine t p fun e => { e with sc := modAt e.sc (wf v.q.word 11 8) fun _ => e.flags.setWidth 32 }

def execFget (t p : Nat) (s : State) : Host.Outcome State Fault Refusal := .next (fgetStep t p s)

/-- FCLR: FLAGS cleared (06 R218). -/
def fclrStep (t p : Nat) (s : State) : State :=
  s.vecRow t p 0x4B fun _ s => (s.popV t p).onEngine t p fun e => { e with flags := 0 }

def execFclr (t p : Nat) (s : State) : Host.Outcome State Fault Refusal := .next (fclrStep t p s)

/-! ### One definition for each register-form instruction -/

/-- ADD: the exact sum rounded once (06 R160, R209). -/
def vaddStep (t p : Nat) (s : State) : State :=
  s.regForm t p 0x01 fun v => v.elementwise fun r c => let x := decodeF v.fmt (v.a r c); let y := decodeF v.fmt (v.b r c); roundElem v.fmt (x.add y) [x, y] false

def execVadd (t p : Nat) (s : State) : Host.Outcome State Fault Refusal := .next (vaddStep t p s)

/-- SUB: the exact difference rounded once (06 R160, R209). -/
def vsubStep (t p : Nat) (s : State) : State :=
  s.regForm t p 0x02 fun v => v.elementwise fun r c => let x := decodeF v.fmt (v.a r c); let y := decodeF v.fmt (v.b r c); roundElem v.fmt (x.add y.flip) [x, y] false

def execVsub (t p : Nat) (s : State) : Host.Outcome State Fault Refusal := .next (vsubStep t p s)

/-- MUL: the exact product rounded once (06 R160, R209). -/
def vmulStep (t p : Nat) (s : State) : State :=
  s.regForm t p 0x03 fun v => v.elementwise fun r c => let x := decodeF v.fmt (v.a r c); let y := decodeF v.fmt (v.b r c); roundElem v.fmt (x.mul y) [x, y] false

def execVmul (t p : Nat) (s : State) : Host.Outcome State Fault Refusal := .next (vmulStep t p s)

/-- FMA: a * b + c rounded once (06 R160, R209). -/
def vfmaStep (t p : Nat) (s : State) : State :=
  s.regForm t p 0x04 fun v => v.elementwise fun r c =>
    let x := decodeF v.fmt (v.a r c)
    let y := decodeF v.fmt (v.b r c)
    let z := decodeF v.fmt (v.c r c)
    roundElem v.fmt ((x.mul y).add z) [x, y, z] false

def execVfma (t p : Nat) (s : State) : Host.Outcome State Fault Refusal := .next (vfmaStep t p s)

/-- FMS: a * b - c rounded once (06 R209). -/
def vfmsStep (t p : Nat) (s : State) : State :=
  s.regForm t p 0x05 fun v => v.elementwise fun r c =>
    let x := decodeF v.fmt (v.a r c)
    let y := decodeF v.fmt (v.b r c)
    let z := decodeF v.fmt (v.c r c)
    roundElem v.fmt ((x.mul y).add z.flip) [x, y, z] false

def execVfms (t p : Nat) (s : State) : Host.Outcome State Fault Refusal := .next (vfmsStep t p s)

/-- MIN (06 R210). -/
def vminStep (t p : Nat) (s : State) : State :=
  s.regForm t p 0x06 fun v => v.elementwise fun r c => (minMax v.fmt false (v.a r c) (v.b r c), 0)

def execVmin (t p : Nat) (s : State) : Host.Outcome State Fault Refusal := .next (vminStep t p s)

/-- MAX (06 R210). -/
def vmaxStep (t p : Nat) (s : State) : State :=
  s.regForm t p 0x07 fun v => v.elementwise fun r c => (minMax v.fmt true (v.a r c) (v.b r c), 0)

def execVmax (t p : Nat) (s : State) : Host.Outcome State Fault Refusal := .next (vmaxStep t p s)

/-- ABS: the sign bit cleared (06 R212). -/
def vabsStep (t p : Nat) (s : State) : State :=
  s.regForm t p 0x08 fun v => v.elementwise fun r c => copyElem v.fmt (withSignCode v.fmt false (v.a r c))

def execVabs (t p : Nat) (s : State) : Host.Outcome State Fault Refusal := .next (vabsStep t p s)

/-- NEG: the sign bit changed (06 R212). -/
def vnegStep (t p : Nat) (s : State) : State :=
  s.regForm t p 0x09 fun v => v.elementwise fun r c => copyElem v.fmt (withSignCode v.fmt (!signOf v.fmt (v.a r c)) (v.a r c))

def execVneg (t p : Nat) (s : State) : Host.Outcome State Fault Refusal := .next (vnegStep t p s)

/-- COPYSIGN: the first source with the sign of the second (06 R212). -/
def copysignStep (t p : Nat) (s : State) : State :=
  s.regForm t p 0x0a fun v => v.elementwise fun r c => copyElem v.fmt (withSignCode v.fmt (signOf v.fmt (v.b r c)) (v.a r c))

def execCopysign (t p : Nat) (s : State) : Host.Outcome State Fault Refusal := .next (copysignStep t p s)

/-- MOV (06 R212). -/
def vmovStep (t p : Nat) (s : State) : State :=
  s.regForm t p 0x0b fun v => v.elementwise fun r c => copyElem v.fmt (v.a r c)

def execVmov (t p : Nat) (s : State) : Host.Outcome State Fault Refusal := .next (vmovStep t p s)

/-- CMPEQ (06 R205, R211). -/
def cmpeqStep (t p : Nat) (s : State) : State :=
  s.regForm t p 0x10 fun v => v.maskWrite fun r c => cmpElem v.fmt true false false false (v.a r c) (v.b r c)

def execCmpeq (t p : Nat) (s : State) : Host.Outcome State Fault Refusal := .next (cmpeqStep t p s)

/-- CMPNE (06 R205, R211). -/
def cmpneStep (t p : Nat) (s : State) : State :=
  s.regForm t p 0x11 fun v => v.maskWrite fun r c => cmpElem v.fmt false true true true (v.a r c) (v.b r c)

def execCmpne (t p : Nat) (s : State) : Host.Outcome State Fault Refusal := .next (cmpneStep t p s)

/-- CMPLT (06 R205, R211). -/
def cmpltStep (t p : Nat) (s : State) : State :=
  s.regForm t p 0x12 fun v => v.maskWrite fun r c => cmpElem v.fmt false true false false (v.a r c) (v.b r c)

def execCmplt (t p : Nat) (s : State) : Host.Outcome State Fault Refusal := .next (cmpltStep t p s)

/-- CMPLE (06 R205, R211). -/
def cmpleStep (t p : Nat) (s : State) : State :=
  s.regForm t p 0x13 fun v => v.maskWrite fun r c => cmpElem v.fmt true true false false (v.a r c) (v.b r c)

def execCmple (t p : Nat) (s : State) : Host.Outcome State Fault Refusal := .next (cmpleStep t p s)

/-- CMPUN (06 R205, R211). -/
def cmpunStep (t p : Nat) (s : State) : State :=
  s.regForm t p 0x14 fun v => v.maskWrite fun r c => cmpElem v.fmt false false false true (v.a r c) (v.b r c)

def execCmpun (t p : Nat) (s : State) : Host.Outcome State Fault Refusal := .next (cmpunStep t p s)

/-- SEL: the first source where the select mask VC[2:0] holds 1, else the second (06 R212). -/
def selStep (t p : Nat) (s : State) : State :=
  s.regForm t p 0x18 fun v => v.elementwise fun r c => copyElem v.fmt (if v.e.mask (v.vc % 8) r c then v.a r c else v.b r c)

def execSel (t p : Nat) (s : State) : Host.Outcome State Fault Refusal := .next (selStep t p s)

/-- MAND (06 R205). -/
def mandStep (t p : Nat) (s : State) : State :=
  s.regForm t p 0x19 fun v => v.maskWrite fun r c => v.ma r c && v.mb r c

def execMand (t p : Nat) (s : State) : Host.Outcome State Fault Refusal := .next (mandStep t p s)

/-- MOR (06 R205). -/
def morStep (t p : Nat) (s : State) : State :=
  s.regForm t p 0x1a fun v => v.maskWrite fun r c => v.ma r c || v.mb r c

def execMor (t p : Nat) (s : State) : Host.Outcome State Fault Refusal := .next (morStep t p s)

/-- MXOR (06 R205). -/
def mxorStep (t p : Nat) (s : State) : State :=
  s.regForm t p 0x1b fun v => v.maskWrite fun r c => v.ma r c != v.mb r c

def execMxor (t p : Nat) (s : State) : Host.Outcome State Fault Refusal := .next (mxorStep t p s)

/-- MNOT (06 R205). -/
def mnotStep (t p : Nat) (s : State) : State :=
  s.regForm t p 0x1c fun v => v.maskWrite fun r c => !v.ma r c

def execMnot (t p : Nat) (s : State) : Host.Outcome State Fault Refusal := .next (mnotStep t p s)

/-- RSUM (06 R213). -/
def rsumStep (t p : Nat) (s : State) : State :=
  s.regForm t p 0x20 fun v => v.reduce sumNode

def execRsum (t p : Nat) (s : State) : Host.Outcome State Fault Refusal := .next (rsumStep t p s)

/-- RMAX (06 R213). -/
def rmaxStep (t p : Nat) (s : State) : State :=
  s.regForm t p 0x21 fun v => v.reduce fun a b => (minMax .h32 true a b, 0)

def execRmax (t p : Nat) (s : State) : Host.Outcome State Fault Refusal := .next (rmaxStep t p s)

/-- EXP2 (06 R214). -/
def exp2Step (t p : Nat) (s : State) : State :=
  s.regForm t p 0x28 fun v => v.transc vExp2 fun _ => false

def execExp2 (t p : Nat) (s : State) : Host.Outcome State Fault Refusal := .next (exp2Step t p s)

/-- LOG2: divide-by-zero for a zero (06 R214). -/
def log2Step (t p : Nat) (s : State) : State :=
  s.regForm t p 0x29 fun v => v.transc vLog2 Val.isZero

def execLog2 (t p : Nat) (s : State) : Host.Outcome State Fault Refusal := .next (log2Step t p s)

/-- RCP: divide-by-zero for a zero (06 R214). -/
def rcpStep (t p : Nat) (s : State) : State :=
  s.regForm t p 0x2a fun v => v.transc vRcp Val.isZero

def execRcp (t p : Nat) (s : State) : Host.Outcome State Fault Refusal := .next (rcpStep t p s)

/-- RSQRT: divide-by-zero for a zero (06 R214). -/
def rsqrtStep (t p : Nat) (s : State) : State :=
  s.regForm t p 0x2b fun v => v.transc vRsqrt Val.isZero

def execRsqrt (t p : Nat) (s : State) : Host.Outcome State Fault Refusal := .next (rsqrtStep t p s)

/-- SINT (06 R215). -/
def sintStep (t p : Nat) (s : State) : State :=
  s.regForm t p 0x2c fun v => v.transc vSint fun _ => false

def execSint (t p : Nat) (s : State) : Host.Outcome State Fault Refusal := .next (sintStep t p s)

/-- COST (06 R215). -/
def costStep (t p : Nat) (s : State) : State :=
  s.regForm t p 0x2d fun v => v.transc vCost fun _ => false

def execCost (t p : Nat) (s : State) : Host.Outcome State Fault Refusal := .next (costStep t p s)

end Sys2Proof.Machine
end

