-- ==== Sys2Proof/Machine/VecMem.lean ====
section
/-! DEFINITION. The vector slot's memory, block memory, slot and context forms (06 R219 to R224; 07 R658). -/

namespace Sys2Proof.Machine

/-! ### VLD and VST -/

/-- Fields of the memory form (07 vector slot). -/
def VIn.cis (v : VIn) : Bool := bitOf v.q.word.toNat 13
def VIn.mfmt (v : VIn) : Nat := wf v.q.word 15 14
def VIn.base (v : VIn) : Nat := v.q.eff (wf v.q.word 45 20)
def VIn.pitch (v : VIn) : Nat := wf v.q.word 57 46 * 64
def VIn.mmask (v : VIn) : Nat := wf v.q.word 60 58
def VIn.mzm (v : VIn) : Bool := bitOf v.q.word.toNat 61
/-- Bytes of a memory element. -/
def VIn.esz (v : VIn) : Nat := if v.mfmt = 0 then 4 else 2
/-- Offset of element (r, c). -/
def VIn.elemOff (v : VIn) (r c : Nat) : Nat := v.base + r * v.pitch + c * v.esz

/-- The fault of VLD or VST: BAD_LENGTH for H32 columns while LCOLS exceeds 32, VRANGE outside the memory (06 R202,
R219). -/
def VIn.memFault (v : VIn) : Option Nat :=
  if v.mfmt ≠ 1 && decide (32 < v.e.lcols) then some kfBadLength
  else if (List.range v.e.lrows).any fun r => decide (unitSize v.cis < v.elemOff r v.e.lcols) then some kfVrange
  else none

/-- Elements that a memory instruction reads or writes: neither tail nor masked off. -/
def VIn.memLive (v : VIn) : List (Nat × Nat) := v.e.live (v.mfmt == 1) v.mmask

/-- VLD: H32, packed S16, or S16 placed in the upper half of an H32 column (06 R219). -/
def vldStep (t p : Nat) (s : State) : State :=
  s.vecRow t p 0x38 fun v s =>
    match v.memFault with
    | some c => s.faultV t p c v.q.bundle
    | none =>
      if v.memLive.any fun x => s.sramBad (unitAddr t p v.cis (v.elemOff x.1 x.2)) v.esz then
        s.faultV t p kfEcc v.q.bundle
      else (s.popV t p).onEngine t p fun e =>
        e.writeElems (v.mfmt == 1) (wf v.q.word 12 8) v.mmask v.mzm fun r c =>
          let n := s.numAt (unitAddr t p v.cis (v.elemOff r c)) v.esz
          if v.mfmt = 2 then n * 2 ^ 16 else n

def execVld (t p : Nat) (s : State) : Host.Outcome State Fault Refusal := .next (vldStep t p s)

/-- VST: masked-off and tail bytes are not written (06 R204, R219, R220). -/
def vstStep (t p : Nat) (s : State) : State :=
  s.vecRow t p 0x39 fun v s =>
    match v.memFault with
    | some c => s.faultV t p c v.q.bundle
    | none =>
      let ws := v.memLive.map fun x => (v.elemOff x.1 x.2, toLE v.esz (v.e.elem (v.mfmt == 1) (wf v.q.word 12 8) x.1 x.2))
      s.unitWrite t p v.q.bundle v.cis ws fun st => st.popV t p

def execVst (t p : Nat) (s : State) : Host.Outcome State Fault Refusal := .next (vstStep t p s)

/-! ### VLDB and VSTB -/

/-- Fields of the descriptor form. -/
def VIn.desc (v : VIn) : Nat := v.q.eff (wf v.q.word 42 17)
def VIn.dmask (v : VIn) : Nat := wf v.q.word 45 43
def VIn.dzm (v : VIn) : Bool := bitOf v.q.word.toNat 46

/-- Reads `n` bytes of descriptor from the cistern, or raises the range fault `range` (07 R658: VRANGE from a memory
instruction, else CISTERN_RANGE) or ECC_UNCORRECTABLE (DEDUCED, log entry 57). -/
def VIn.readDesc (v : VIn) (s : State) (t p n range : Nat) (f : Bytes → State → State) : State :=
  if cisBytes < v.desc + n then s.faultV t p range v.q.bundle
  else if s.sramBad (cisAddr t v.desc) n then s.faultV t p kfEcc v.q.bundle
  else f (s.bytesAt (cisAddr t v.desc) n) s

/-- Ranges of VLDB and VSTB: `n` element bytes in each live row, one scale byte for each row (06 R221). -/
def VIn.blkFit (v : VIn) (d : SlotAcc) (n : Nat) : Bool :=
  rowsFit d.addr d.pitch v.e.lrows n (unitSize d.dest) && decide (d.scaleAddr + v.e.lrows ≤ unitSize d.dest)

/-- VLDB: block-format data widened under RNE, exact but at the ends of the E8 range (06 R221; 04 R124, R137)
(DEDUCED, log entry 57). -/
def vldbStep (t p : Nat) (s : State) : State :=
  s.vecRow t p 0x3A fun v s =>
    if 32 < v.e.lcols then s.faultV t p kfBadLength v.q.bundle
    else v.readDesc s t p 32 kfVrange fun b s =>
      let d := slotAcc b
      match fmtOf d.fmt with
      | none => s.faultV t p kfBadParamDrain v.q.bundle
      | some f =>
        let live := v.e.live false v.dmask
        let addr := fun r c => unitAddr t p d.dest (d.addr + r * d.pitch + c * f.width / 8)
        if !accOk .vldb b then s.faultV t p kfBadParamDrain v.q.bundle
        else if !v.blkFit d (elemBytes f v.e.lcols) then s.faultV t p kfVrange v.q.bundle
        else if live.any fun x => s.sramBad (addr x.1 x.2) 1 || s.sramBad (unitAddr t p d.dest (d.scaleAddr + x.1)) 1 then
          s.faultV t p kfEcc v.q.bundle
        else
          let el := fun r c =>
            let byte := (s.byteAt (addr r c)).toNat
            let code := if f = .s4 then byte / 16 ^ (c % 2) % 16 else byte
            convRne .h32 (scaled f code (s.byteAt (unitAddr t p d.dest (d.scaleAddr + r))).toNat)
          (s.popV t p).onEngine t p fun e =>
            (e.writeElems false (wf v.q.word 12 8) v.dmask v.dzm fun r c => (el r c).code).gather
              (live.map fun x => (el x.1 x.2).flags)

def execVldb (t p : Nat) (s : State) : Host.Outcome State Fault Refusal := .next (vldbStep t p s)

/-- VSTB: each live row is one block of 32, converted under the descriptor's OMODE, SAT, SCALING and E8
(06 R221, R222; 04 R654, R139) (DEDUCED, log entry 57). -/
def vstbStep (t p : Nat) (s : State) : State :=
  s.vecRow t p 0x3B fun v s =>
    v.readDesc s t p 32 kfVrange fun b s =>
      let d := slotAcc b
      match fmtOf d.fmt, rmodeOf d.omode with
      | some f, some mode =>
        if !accOk .vstb b then s.faultV t p kfBadParamDrain v.q.bundle
        else if v.e.lcols ≠ 32 then s.faultV t p kfBadLength v.q.bundle
        else if !v.blkFit d (elemBytes f 32) || decide (cisBytes < d.record + 16) then s.faultV t p kfVrange v.q.bundle
        else if s.sramBad (cisAddr t d.record) 16 then s.faultV t p kfEcc v.q.bundle
        else
          let rows := (List.range v.e.lrows).map fun r =>
            blockConv f mode d.sat d.scaling false d.e8
              ((List.range 32).map fun c => if v.e.mask v.dmask r c then some (hval (v.e.h (wf v.q.word 12 8) r c)) else none)
              ((List.range 32).map fun c => v.rnd mode r c)
          let ws := rows.zipIdx.flatMap fun x =>
            [(d.addr + x.2 * d.pitch, packCodes f (x.1.elems.map (·.code))), (d.scaleAddr + x.2, [BitVec.ofNat 8 x.1.e8])]
          let add := (rows.map (·.record)).foldl RecAdd.join RecAdd.zero
          s.unitWrite t p v.q.bundle d.dest ws fun s1 =>
            let s2 := (s1.store 1 (cisAddr t d.record) (add.apply (s1.bytesAt (cisAddr t d.record) 16))).1
            (s2.popV t p).onEngine t p fun e => e.gather (rows.flatMap fun x => x.elems.map Rnd.flags)
      | _, _ => s.faultV t p kfBadParamDrain v.q.bundle

def execVstb (t p : Nat) (s : State) : Host.Outcome State Fault Refusal := .next (vstbStep t p s)

/-! ### SLD, SST, SLOT_RETURN (06 R224) -/

/-- Fields of the slot form. -/
def VIn.slot (v : VIn) : Nat := wf v.q.word 16 13
def VIn.row0 (v : VIn) : Nat := wf v.q.word 20 17 * 16
def VIn.col0 (v : VIn) : Nat := wf v.q.word 23 21 * 32

/-- Runs `f` when the engine holds the slot; else the instruction waits (05 R176). -/
def VIn.held (v : VIn) (s : State) (t p : Nat) (f : Core → State) : State :=
  match s.core? t p with
  | some c => if c.given.getD v.slot false then f c else s
  | none => s

/-- Whether accumulator words that SLD reads hold a double-bit error. -/
def State.regionBad (s : State) (t p slot r0 c0 rows cols : Nat) : Bool :=
  (List.range rows).any fun r => s.sramBad (accAddr t p slot (1024 * (r0 + r) + 4 * c0)) (4 * cols)

/-- SLD: a region of a held slot into a register, raw H32 bits. -/
def sldStep (t p : Nat) (s : State) : State :=
  s.vecRow t p 0x40 fun v s =>
    if 32 < v.e.lcols then s.faultV t p kfBadLength v.q.bundle
    else v.held s t p fun c =>
      if s.regionBad t p v.slot v.row0 v.col0 v.e.lrows v.e.lcols then s.faultV t p kfEcc v.q.bundle
      else (s.popV t p).onEngine t p fun e =>
        e.setReg (wf v.q.word 12 8) fun r q =>
          if e.tail r q then e.h (wf v.q.word 12 8) r q else c.accAt v.slot (v.row0 + r) (v.col0 + q)

def execSld (t p : Nat) (s : State) : Host.Outcome State Fault Refusal := .next (sldStep t p s)

/-- SST: a register into a region of a held slot, subnormals exact. -/
def sstStep (t p : Nat) (s : State) : State :=
  s.vecRow t p 0x41 fun v s =>
    if 32 < v.e.lcols then s.faultV t p kfBadLength v.q.bundle
    else v.held s t p fun _ =>
      let s1 := (List.range v.e.lrows).foldl (fun st r =>
        st.cleanWords (accAddr t p v.slot (1024 * (v.row0 + r) + 4 * v.col0)) (4 * v.e.lcols)) (s.popV t p)
      s1.onCore t p fun c =>
        c.setAcc v.slot v.row0 v.col0 v.e.lrows v.e.lcols fun r q => v.e.h (wf v.q.word 12 8) r q

def execSst (t p : Nat) (s : State) : Host.Outcome State Fault Refusal := .next (sstStep t p s)

/-- SLOT_RETURN: the slot goes back to the matrix core. -/
def slotReturnStep (t p : Nat) (s : State) : State :=
  s.vecRow t p 0x42 fun v s =>
    v.held s t p fun _ => (s.popV t p).onCore t p fun c => { c with given := modAt c.given v.slot fun _ => false }

def execSlotReturn (t p : Nat) (s : State) : Host.Outcome State Fault Refusal := .next (slotReturnStep t p s)

/-! ### LDS, STS, VCTX -/

/-- Effective offset and memory of LDS and STS. -/
def VIn.soff (v : VIn) : Nat := v.q.eff (wf v.q.word 42 17)
def VIn.smem (v : VIn) : Bool := bitOf v.q.word.toNat 43

/-- LDS: a scalar register from basin or cistern (07 R658). -/
def ldsStep (t p : Nat) (s : State) : State :=
  s.vecRow t p 0x4C fun v s =>
    if unitSize v.smem < v.soff + 4 then s.faultV t p kfVrange v.q.bundle
    else if s.sramBad (unitAddr t p v.smem v.soff) 4 then s.faultV t p kfEcc v.q.bundle
    else (s.popV t p).onEngine t p fun e =>
      { e with sc := modAt e.sc (wf v.q.word 11 8) fun _ => BitVec.ofNat 32 (s.numAt (unitAddr t p v.smem v.soff) 4) }

def execLds (t p : Nat) (s : State) : Host.Outcome State Fault Refusal := .next (ldsStep t p s)

/-- STS: a scalar register to basin or cistern (07 R658; 06 R220). -/
def stsStep (t p : Nat) (s : State) : State :=
  s.vecRow t p 0x4D fun v s =>
    if unitSize v.smem < v.soff + 4 then s.faultV t p kfVrange v.q.bundle
    else s.unitWrite t p v.q.bundle v.smem [(v.soff, toLE 4 (v.e.sc.getD (wf v.q.word 11 8) 0).toNat)] fun st => st.popV t p

def execSts (t p : Nat) (s : State) : Host.Outcome State Fault Refusal := .next (stsStep t p s)

/-- VCTX: 12 bytes into TENSOR_ID, ROW_BASE and COL_BASE (06 R223; 07 vector opcodes) (DEDUCED, log entry 57). -/
def vctxStep (t p : Nat) (s : State) : State :=
  s.vecRow t p 0x49 fun v s =>
    v.readDesc s t p 12 kfCisternRange fun b s =>
      (s.popV t p).onEngine t p fun e =>
        { e with tensorId := BitVec.ofNat 32 (fld b 0 4), rowBase := BitVec.ofNat 32 (fld b 4 4),
                 colBase := BitVec.ofNat 32 (fld b 8 4) }

def execVctx (t p : Nat) (s : State) : Host.Outcome State Fault Refusal := .next (vctxStep t p s)

end Sys2Proof.Machine
end

