-- ==== Sys2Proof/Machine/Optimizer.lean ====
section
/-! DEFINITION. UPDATE and the norm ledger (06 R225 to R230). -/

namespace Sys2Proof.Machine

/-- Fields of the update descriptor (06). -/
structure Upd where
  adamw : Bool
  wide : Bool
  skip : Bool
  ledger : Bool
  layer : Nat
  stripe : Nat
  stripes : Nat
  count : Nat
  stateIn : Nat
  stateOut : Nat
  grad : Nat
  ledgerAt : Nat
  step : Nat
  lr : BitVec 32
  beta1 : BitVec 32
  beta2 : BitVec 32
  omb1 : BitVec 32
  omb2 : BitVec 32
  eps : BitVec 32
  wd : BitVec 32
  c1 : BitVec 32
  c2 : BitVec 32
  deriving DecidableEq, Repr

/-- Fields of 128 descriptor bytes. -/
def updOf (b : Bytes) : Upd :=
  let h := fun o => BitVec.ofNat 32 (fld b o 4)
  { adamw := fld b 0 1 == 1, wide := fld b 1 1 == 4, skip := bitOf (fld b 2 1) 0, ledger := bitOf (fld b 2 1) 1,
    layer := fld b 4 4, stripe := fld b 8 2, stripes := fld b 10 2, count := fld b 12 4, stateIn := fld b 16 8,
    stateOut := fld b 24 8, grad := fld b 32 8, ledgerAt := fld b 40 8, step := fld b 48 8, lr := h 56, beta1 := h 60,
    beta2 := h 64, omb1 := h 68, omb2 := h 72, eps := h 76, wd := h 80, c1 := h 84, c2 := h 88 }

/-- Whether every field of an update descriptor holds a value its table allows (DEDUCED, log entry 55). -/
def updOk (b : Bytes) : Bool :=
  let u := updOf b
  (fld b 0 1 == 1 || fld b 0 1 == 2) && (fld b 1 1 == 3 || fld b 1 1 == 4) && decide (fld b 2 1 < 4) && zeroAt b 3 1 &&
  zeroAt b 92 36 && decide (1 ≤ u.stripes ∧ u.stripes ≤ 4096) && decide (u.stripe < u.stripes) &&
  decide (1 ≤ u.count ∧ u.count ≤ 2 ^ 31)

/-- Elements of a plane (06 R225). -/
def Upd.p (u : Upd) : Nat := ceilDiv u.count 128 * 128
/-- Bytes of a gradient element. -/
def Upd.gsz (u : Upd) : Nat := if u.wide then 4 else 2
/-- Ranges UPDATE reads and writes: base, bytes, whether written (DEDUCED, log entry 55). -/
def Upd.ranges (u : Upd) : List (Nat × Nat × Bool) :=
  let planes := fun (b : Nat) (w : Bool) =>
    [(b, 4 * u.count, w), (b + 4 * u.p, 4 * u.count, w)] ++ (if u.adamw then [(b + 8 * u.p, 4 * u.count, w)] else [])
  planes u.stateIn false ++ planes u.stateOut true ++ [(u.grad, u.gsz * u.count, false)] ++
    (if u.ledger then [(u.ledgerAt, 64 * (u.stripes + 1), true)] else [])

/-- An H32 operation with the flags it gathers (06 R228). -/
abbrev HF := BitVec 32 × BitVec 5
def fMul (a b : HF) : HF :=
  let r := arithFlags .h32 ((hval a.1).mul (hval b.1)) [hval a.1, hval b.1] false
  (r.1, a.2 ||| b.2 ||| r.2)
def fAdd (a b : HF) : HF :=
  let r := arithFlags .h32 ((hval a.1).add (hval b.1)) [hval a.1, hval b.1] false
  (r.1, a.2 ||| b.2 ||| r.2)
def fSub (a b : HF) : HF :=
  let r := arithFlags .h32 ((hval a.1).add (hval b.1).flip) [hval a.1, hval b.1] false
  (r.1, a.2 ||| b.2 ||| r.2)
def fFma (a b c : HF) : HF :=
  let r := arithFlags .h32 (((hval a.1).mul (hval b.1)).add (hval c.1)) [hval a.1, hval b.1, hval c.1] false
  (r.1, a.2 ||| b.2 ||| c.2 ||| r.2)
def fRsqrt (a : HF) : HF :=
  let r := arithFlags .h32 (vRsqrt (hval a.1)) [hval a.1] (hval a.1).isZero
  (r.1, a.2 ||| r.2)

/-- What one element gives: w1, m1, v1, u, g, w and the flags. -/
structure UpdElem where
  w1 : BitVec 32
  m1 : BitVec 32
  v1 : BitVec 32
  u : BitVec 32
  g : BitVec 32
  w : BitVec 32
  flags : BitVec 5
  deriving DecidableEq, Repr

/-- One element of R226; with SKIP the planes are copied (06 R227). -/
def updElem (d : Upd) (g w m v : BitVec 32) : UpdElem :=
  let k : BitVec 32 → HF := fun x => (x, 0)
  if d.skip then { w1 := w, m1 := m, v1 := v, u := 0, g := g, w := w, flags := 0 }
  else
    let m1 := if d.adamw then fFma (k d.beta1) (k m) (fMul (k d.omb1) (k g)) else fFma (k d.beta1) (k m) (k g)
    let v1 := if d.adamw then fFma (k d.beta2) (k v) (fMul (k d.omb2) (fMul (k g) (k g))) else k v
    let s :=
      if d.adamw then fFma (fMul m1 (k d.c1)) (fRsqrt (fFma v1 (k d.c2) (k d.eps))) (fMul (k d.wd) (k w))
      else fAdd m1 (fMul (k d.wd) (k w))
    let u := fMul (k d.lr) s
    let w1 := fSub (k w) u
    { w1 := w1.1, m1 := m1.1, v1 := v1.1, u := u.1, g := g, w := w, flags := w1.2 ||| v1.2 }

/-- Sum of the squares of the finite values in 512 lanes and the tree over the lanes (06 R229). -/
def sumSq (l : List (BitVec 32)) : BitVec 64 :=
  let lanes := l.zipIdx.foldl (fun (acc : List (BitVec 64)) x =>
    if hFin x.1 then modAt acc (x.2 % 512) fun a => xAdd a (toX ((hval x.1).mul (hval x.1))) else acc)
    (List.replicate 512 (0 : BitVec 64))
  treeFold xAdd 0 lanes

/-- A 64-byte norm ledger entry (06). -/
def ledgerEntry (layer stripe stripes step : Nat) (w g u : BitVec 64) (n nfg nfs flags : Nat) : Bytes :=
  toLE 4 layer ++ toLE 2 stripe ++ toLE 2 stripes ++ toLE 8 step ++ toLE 8 w.toNat ++ toLE 8 g.toNat ++
    toLE 8 u.toNat ++ toLE 8 n ++ toLE 4 (sat32 nfg) ++ toLE 4 (sat32 nfs) ++ toLE 1 flags ++ zeros 7

/-- The partial of a stripe (06 R227 to R230). -/
def updPartial (d : Upd) (l : List UpdElem) : Bytes :=
  ledgerEntry d.layer d.stripe d.stripes d.step (sumSq (l.map (·.w))) (sumSq (l.map (·.g)))
    (if d.skip then 0 else sumSq (l.map (·.u))) d.count ((l.filter fun x => !hFin x.g).length)
    ((l.filter fun x => !hFin x.w1 || !hFin x.m1 || (d.adamw && !hFin x.v1)).length) (if d.skip then 1 else 0)

/-- Adds a partial to a tile's record of those present. -/
def addPresent (d : Upd) (l : List LedgerWait) : List LedgerWait :=
  let same := fun (x : LedgerWait) => x.addr == d.ledgerAt && x.layer == d.layer && x.step == d.step && x.stripes == d.stripes
  if l.any same then modFirst same (fun x => { x with present := insertAsc d.stripe x.present }) l
  else l ++ [{ addr := d.ledgerAt, layer := d.layer, step := d.step, stripes := d.stripes, present := [d.stripe] }]

/-- The elements of a stripe read from memory. -/
def State.updElems (s : State) (d : Upd) : List UpdElem :=
  (List.range d.count).map fun i =>
    let h := fun a => BitVec.ofNat 32 (s.numAt a 4)
    let g := if d.wide then h (d.grad + 4 * i) else toH (decodeF .s16 (s.numAt (d.grad + 2 * i) 2))
    updElem d g (h (d.stateIn + 4 * i)) (h (d.stateIn + 4 * d.p + 4 * i)) (h (d.stateIn + 8 * d.p + 4 * i))

/-- Stores pieces in order; false when a line refused one. -/
def State.storeAll (s : State) (src : Nat) (l : List (Nat × Bytes)) : State × Bool :=
  l.foldl (fun x r => let y := x.1.store src r.1 r.2; (y.1, x.2 && y.2)) (s, true)

/-- UPDATE over a checked descriptor: the newer planes, then the partial (06 R226 to R230). -/
def State.updWork (s : State) (t p : Nat) (v : VIn) (d : Upd) : State :=
  let rd := s.loadAll 1 ((d.ranges.filter fun r => !r.2.2).map fun r => (r.1, r.2.1))
  if !rd.2 then rd.1.faultV t p kfEcc v.q.bundle
  else
    let l := rd.1.updElems d
    let plane := fun (f : UpdElem → BitVec 32) => l.flatMap fun x => toLE 4 (f x).toNat
    let wr := rd.1.storeAll 1 ([(d.stateOut, plane (·.w1)), (d.stateOut + 4 * d.p, plane (·.m1))] ++
      (if d.adamw then [(d.stateOut + 8 * d.p, plane (·.v1))] else []) ++
      (if d.ledger then [(d.ledgerAt + 64 * d.stripe, updPartial d l)] else []))
    let s1 := (wr.1.popV t p).onEngine t p fun e => e.gather (l.map (·.flags))
    let s2 := if d.ledger then s1.onTile t fun x => { x with ledger := addPresent d x.ledger } else s1
    if wr.2 then s2 else s2.kfault t p kfEcc v.q.bundle

/-- UPDATE (06 R226). A range outside the partition, a staging quarter or the reservoir record among them, ends it with
TENANT_DENIED before any write (10 R321; DEDUCED, log entry 55). -/
def updateStep (t p : Nat) (s : State) : State :=
  s.vecRow t p 0x50 fun v s =>
    v.readDesc s t p 128 kfCisternRange fun b s =>
      let d : Upd := { updOf b with skip := (updOf b).skip || (v.k.entry.bind fun e => s.job? e.1).any (·.skip) }
      let mine := (s.tenant? v.k.tenant).any fun tn => d.ranges.all fun r => inPart tn false r.2.2 r.1 r.2.1
      let ends := fun st => (s.popV t p).kfaultOf v.k.kid t p kfMoverStatus v.q.bundle st
      if !updOk b then s.faultV t p kfBadParamDrain v.q.bundle
      else if d.stateIn % 512 != 0 || d.stateOut % 512 != 0 || d.ledgerAt % 64 != 0 then s.faultV t p kfVrange v.q.bundle
      else if !mine then ends stDenied
      else if d.ranges.any fun r => decide (hbmEnd ≤ r.1) then s.faultV t p kfVrange v.q.bundle
      else if d.ranges.any fun r => hbmAny s.groupOff r.1 r.2.1 then ends stNoResource
      else if d.ranges.any fun r => hbmAny (fun g => !s.groupReady g) r.1 r.2.1 then s
      else s.updWork t p v d

def execUpdate (t p : Nat) (s : State) : Host.Outcome State Fault Refusal := .next (updateStep t p s)

/-- Whether a wait names the same layer's array. -/
def LedgerWait.same (a b : LedgerWait) : Bool :=
  a.addr == b.addr && a.layer == b.layer && a.step == b.step && a.stripes == b.stripes

/-- The module entry folded from the partials at an array (06 R230) (DEDUCED, log entry 56). -/
def State.foldLedger (s : State) (l : LedgerWait) : Bytes :=
  let ent := (List.range l.stripes).map fun i => s.bytesAt (l.addr + 64 * i) 64
  let sum := fun o => treeFold xAdd 0 (ent.map fun b => BitVec.ofNat 64 (fld b o 8))
  let add := fun o n => (ent.map fun b => fld b o n).sum
  ledgerEntry l.layer 0xFFFF l.stripes l.step (sum 16) (sum 24) (sum 32) (sat64 (add 40 8)) (add 48 4) (add 52 4)
    (ent.foldl (fun a b => a ||| fld b 56 1) 0)

/-- LEDGER_FOLD: the first layer whose stripe 0 this tile ran and whose partials are all present (06 R230)
(DEDUCED, log entry 56). -/
def ledgerFoldStep (t : Nat) (s : State) : State :=
  match s.tiles[t]? with
  | none => s
  | some x =>
    let ready := fun (l : LedgerWait) => l.present.contains 0 &&
      (List.range l.stripes).all fun i => s.tiles.any fun y => y.ledger.any fun m => m.same l && m.present.contains i
    match x.ledger.find? ready with
    | none => s
    | some l =>
      let rd := s.loadAll 1 [(l.addr, 64 * l.stripes)]
      let s1 := if rd.2 then (rd.1.store 1 (l.addr + 64 * l.stripes) (rd.1.foldLedger l)).1 else rd.1
      { s1 with tiles := s1.tiles.map fun y => { y with ledger := y.ledger.filter fun m => !m.same l } }

def execLedgerFold (t : Nat) (s : State) : Host.Outcome State Fault Refusal := .next (ledgerFoldStep t s)

end Sys2Proof.Machine
end

