-- ==== Sys2Proof/Machine/Xu.lean ====
section
/-! DEFINITION. The convolution expansion unit (08): EXPAND, FOLD, pooling and CROP_RESIZE, and the completion of an
expansion command. A command is a list of items, each with the bytes it reads, the bytes it writes and what it writes. -/

namespace Sys2Proof.Machine

/-! ### Fields -/

/-- One axis of the window geometry (08 window geometry): extent, window, stride, dilation, padding, first output
position and count, and the pad mode. -/
structure Axis where
  n : Nat
  k : Nat
  stride : Nat
  dil : Nat
  lo : Nat
  hi : Nat
  o0 : Nat
  cnt : Nat
  mode : Nat
  deriving DecidableEq, Repr

/-- Fields of an expansion command (08 R264). -/
structure XCmd where
  op : Nat
  fmt : Nat
  ofmt : Nat
  omit_ : Bool
  countPad : Bool
  index : Bool
  norm : Bool
  image : Nat
  imageAux : Nat
  output : Nat
  outputAux : Nat
  imPitch : Nat
  imAuxPitch : Nat
  outPitch : Nat
  outAuxPitch : Nat
  c : Nat
  y : Axis
  x : Axis
  padValue : BitVec 32
  iy0 : Nat
  ihCnt : Nat
  boxes : Nat
  deriving DecidableEq, Repr

/-- Fields of 128 command bytes. -/
def xcmdOf (b : Bytes) : XCmd :=
  let ctl := fld b 3 1
  let m := fld b 2 1 % 4
  { op := fld b 0 1, fmt := fld b 1 1 % 8, ofmt := bits (fld b 1 1) 6 4, omit_ := bitOf ctl 0, countPad := bitOf ctl 1,
    index := bitOf ctl 2, norm := bitOf ctl 3, image := fld b 8 8, imageAux := fld b 16 8, output := fld b 24 8,
    outputAux := fld b 32 8, imPitch := fld b 40 4, imAuxPitch := fld b 44 4, outPitch := fld b 48 4,
    outAuxPitch := fld b 52 4, c := fld b 60 2,
    y := { n := fld b 56 2, k := fld b 62 1, stride := fld b 64 1, dil := fld b 66 1, lo := fld b 68 2, hi := fld b 70 2,
           o0 := fld b 80 2, cnt := fld b 84 2, mode := m },
    x := { n := fld b 58 2, k := fld b 63 1, stride := fld b 65 1, dil := fld b 67 1, lo := fld b 72 2, hi := fld b 74 2,
           o0 := fld b 82 2, cnt := fld b 86 2, mode := m },
    padValue := BitVec.ofNat 32 (fld b 76 4), iy0 := fld b 88 2, ihCnt := fld b 90 2, boxes := fld b 92 2 }

/-- Element format. -/
def XCmd.f (d : XCmd) : Fmt := (fmtOf d.fmt).getD .h32
/-- Output format: CROP_RESIZE names its own. -/
def XCmd.fo (d : XCmd) : Fmt := if d.op = 6 then (fmtOf d.ofmt).getD .h32 else d.f
/-- Bytes of `n` elements of the image. -/
def XCmd.ib (d : XCmd) (n : Nat) : Nat := elemBytes d.f n
/-- FOLD and POOL_GRAD write the image. -/
def XCmd.back (d : XCmd) : Bool := d.op == 2 || d.op == 5

/-- Step 1 of R267: undefined codes, reserved fields and ranges (08 R264, R660). -/
def xcmdOk (b : Bytes) : Bool :=
  let d := xcmdOf b
  let fm := fld b 1 1
  let crop := d.op == 6
  let fmts := match d.op with
    | 1 => decide (d.fmt ≤ 3)
    | 2 => d.fmt == 4
    | 3 => d.fmt == 3 || d.fmt == 4
    | 4 => d.fmt == 3 || d.fmt == 4
    | 5 => d.fmt == 4
    | _ => d.fmt == 3 || d.fmt == 4
  let ctlMask := match d.op with
    | 1 => 1 | 2 => 1 | 3 => 4 | 4 => 2 | 5 => 6 | _ => 8
  let blk := d.op == 1 && decide (d.fmt ≤ 2)
  let idx := (d.op == 3 || d.op == 5) && d.index
  let ax := fun (a : Axis) => decide (1 ≤ a.k ∧ a.k ≤ 64) && decide (1 ≤ a.stride ∧ a.stride ≤ 64) &&
    decide (1 ≤ a.dil ∧ a.dil ≤ 64) && decide (a.lo ≤ 4095) && decide (a.hi ≤ 4095)
  decide (1 ≤ d.op ∧ d.op ≤ 6) && fmts && !bitOf fm 3 && !bitOf fm 7 &&
  (if crop then d.ofmt == 3 || d.ofmt == 4 else d.ofmt == 0) &&
  (if crop then fld b 2 1 == 0 else decide (fld b 2 1 < 4)) &&
  (List.range 8).all (fun i => !bitOf (fld b 3 1) i || bitOf ctlMask i) &&
  decide (fld b 5 1 < 2) &&
  (blk || crop || d.imageAux == 0) && (blk || d.imAuxPitch == 0) &&
  (blk || idx || (d.outputAux == 0 && d.outAuxPitch == 0)) &&
  d.imPitch % 64 == 0 && d.outPitch % 64 == 0 &&
  decide (1 ≤ d.y.n ∧ d.y.n ≤ 16384) && decide (1 ≤ d.x.n ∧ d.x.n ≤ 16384) && decide (1 ≤ d.c ∧ d.c ≤ 8192) &&
  (if crop then zeroAt b 62 14 && zeroAt b 80 4 && decide (1 ≤ d.y.cnt ∧ d.y.cnt ≤ 4096) && decide (1 ≤ d.x.cnt ∧ d.x.cnt ≤ 4096)
   else ax d.y && ax d.x && decide (1 ≤ d.y.cnt) && decide (1 ≤ d.x.cnt)) &&
  (if d.back then decide (1 ≤ d.ihCnt) else d.iy0 == 0 && d.ihCnt == 0) &&
  (if crop then decide (1 ≤ d.boxes ∧ d.boxes ≤ 4096) else d.boxes == 0) && zeroAt b 94 34

/-! ### Window geometry (08 R265 to R268) -/

/-- Output extent (R266). -/
def Axis.extent (a : Axis) : Int :=
  ((a.n : Int) + a.lo + a.hi - a.dil * (a.k - 1) - 1) / (a.stride : Int) + 1
/-- Image index that tap `k` of output `o` names (R265). -/
def Axis.at (a : Axis) (o k : Nat) : Int := (o : Int) * a.stride - a.lo + k * a.dil
/-- Whether a tap is a pad tap. -/
def Axis.pad (a : Axis) (o k : Nat) : Bool := decide (a.at o k < 0 ∨ (a.n : Int) ≤ a.at o k)
/-- Reflected index (R268). -/
def reflectIdx (i : Int) (n : Nat) : Nat :=
  if n = 1 then 0
  else
    let p : Int := 2 * ((n : Int) - 1)
    let m := i - p * (i / p)
    (if m < n then m else p - m).toNat
/-- Image index that a tap reads, none for the pad value. -/
def Axis.map (a : Axis) (o k : Nat) : Option Nat :=
  let i := a.at o k
  if !a.pad o k then some i.toNat
  else if a.mode = 2 then some (max 0 (min i (a.n - 1))).toNat
  else if a.mode = 3 then some (reflectIdx i a.n)
  else none
/-- Output positions of the rectangle on an axis. -/
def Axis.outs (a : Axis) : List Nat := (List.range a.cnt).map (a.o0 + ·)

/-- Taps `t = ky KW + kx` that are not omitted, ascending (R271, R273). -/
def XCmd.taps (d : XCmd) : List Nat :=
  (List.range (d.y.k * d.x.k)).filter fun t =>
    !(d.omit_ && (d.y.outs.all (fun o => d.y.pad o (t / d.x.k)) || d.x.outs.all fun o => d.x.pad o (t % d.x.k)))
/-- Taps omitted. -/
def XCmd.omitted (d : XCmd) : Nat := d.y.k * d.x.k - d.taps.length
/-- Pixel a tap of an output position reads, none for a pad value. -/
def XCmd.pixel (d : XCmd) (oy ox t : Nat) : Option (Nat × Nat) :=
  match d.y.map oy (t / d.x.k), d.x.map ox (t % d.x.k) with
  | some i, some j => some (i, j)
  | _, _ => none
/-- Whether a tap of an output position is a pad tap. -/
def XCmd.padTap (d : XCmd) (oy ox t : Nat) : Bool := d.y.pad oy (t / d.x.k) || d.x.pad ox (t % d.x.k)
/-- Output position of row `r` of the rectangle. -/
def XCmd.outAt (d : XCmd) (r : Nat) : Nat × Nat := (d.y.o0 + r / d.x.cnt, d.x.o0 + r % d.x.cnt)
/-- Output positions of the rectangle, row-major. -/
def XCmd.positions (d : XCmd) : List (Nat × Nat) := (List.range (d.y.cnt * d.x.cnt)).map d.outAt
/-- C rounded up to the group size of R144; 16 for the H32 expanded gradient (R271). -/
def XCmd.cpad (d : XCmd) : Nat := if d.f.isBlock then ceilDiv d.c 32 * 32 else ceilDiv d.c 16 * 16
/-- Elements of an expanded row. -/
def XCmd.kExt (d : XCmd) : Nat := d.taps.length * d.cpad

/-! ### Addresses -/

/-- The C channels of an image pixel, and its scales. -/
def XCmd.pixRange (d : XCmd) (p : Nat × Nat) : Nat × Nat := (d.image + p.1 * d.imPitch + d.ib (p.2 * d.c), d.ib d.c)
def XCmd.scaleRange (d : XCmd) (p : Nat × Nat) : Nat × Nat := (d.imageAux + p.1 * d.imAuxPitch + p.2 * (d.c / 32), d.c / 32)
/-- One element of an image or pooled row. -/
def XCmd.imgElem (d : XCmd) (iy ix c : Nat) : Nat × Nat := (d.image + iy * d.imPitch + d.ib (ix * d.c + c), d.ib 1)
/-- The C channels of a pooled position, relative to the rectangle, and its index entries. -/
def XCmd.poolRange (d : XCmd) (i j : Nat) : Nat × Nat := (d.output + i * d.outPitch + d.ib (j * d.c), d.ib d.c)
def XCmd.idxRange (d : XCmd) (i j : Nat) : Nat × Nat := (d.outputAux + i * d.outAuxPitch + j * d.c * 2, d.c * 2)

/-! ### Remote accesses of the XU (08 R267; 11 R389 to R391) -/

/-- A number read for tile `t`'s command: from memory, or from the pieces a peer sent. -/
def State.xuNum (s : State) (t addr n : Nat) : Nat :=
  match s.placeOf addr n with
  | .loc a => s.numAt a n
  | _ =>
    let got := ((s.tiles[t]?).map (·.xuNet.got)).getD []
    leNat ((List.range n).map fun i =>
      ((got.findSome? fun g => if g.1 ≤ addr + i ∧ addr + i < g.1 + g.2.length then g.2[addr + i - g.1]? else none).getD 0))
/-- A code of a run of elements at `base`. -/
def State.xuCode (s : State) (t : Nat) (f : Fmt) (base i : Nat) : Nat :=
  if f = .s4 then s.xuNum t (base + i / 2) 1 / 16 ^ (i % 2) % 16 else s.xuNum t (base + i * (f.width / 8)) (f.width / 8)

/-- Pieces of a range that do not cross a 512-byte boundary (11 R390). -/
def pieces (a n : Nat) : List (Nat × Nat) :=
  (List.range ((a + n - 1) / 512 + 1 - a / 512)).map fun i =>
    let lo := max a ((a / 512 + i) * 512)
    (lo, min (a + n) ((a / 512 + i + 1) * 512) - lo)
/-- The remote pieces of a list of ranges, each once (DEDUCED, log entry 63). -/
def State.remotePieces (s : State) (l : List (Nat × Nat)) : List (Nat × Nat) :=
  ((l.filter fun r => r.2 != 0 && match s.placeOf r.1 r.2 with
    | .remote _ _ => true
    | _ => false).flatMap fun r => pieces r.1 r.2).eraseDups
/-- Changes the XU's remote accesses. -/
def State.onNet (s : State) (t : Nat) (f : UnitNet → UnitNet) : State := s.onTile t fun x => { x with xuNet := f x.xuNet }

/-- Asks for one remote piece, or takes it from the read buffer (11 R399) (DEDUCED, log entry 63). -/
def State.xuAsk (s : State) (t : Nat) (src : ReqSrc) (r : Nat × Nat) : State :=
  match s.placeOf r.1 r.2, ((s.tiles[t]?).map (·.xuNet.asked)).getD [] with
  | .remote m a, asked =>
    if asked.contains r.1 then s
    else match s.buffered m a r.2 with
      | some bs => s.onNet t fun n => { n with asked := n.asked ++ [r.1], got := n.got ++ [(r.1, bs)] }
      | none =>
        match s.reqJob src m 1 a r.2 with
        | none => s.onNet t fun n => { n with asked := n.asked ++ [r.1], err := stDenied }
        | some j =>
          match s.request (reqPkt 1 5 m j a r.2 0 []) (.unitRead t r.1) with
          | none => s
          | some (s1, true) => s1.onNet t fun n => { n with asked := n.asked ++ [r.1], waiting := n.waiting + 1 }
          | some (s1, false) => s1.onNet t fun n => { n with asked := n.asked ++ [r.1], err := stMemberLost }
  | _, _ => s
/-- Sends remote writes that wait, while tags are free (11 R402) (DEDUCED, log entry 63). -/
def State.xuSend (s : State) (t : Nat) (src : ReqSrc) : State :=
  (((s.tiles[t]?).map (·.xuNet.todo)).getD []).foldl (fun st w =>
    match st.placeOf w.1 w.2.length with
    | .remote m a =>
      match st.reqJob src m 2 a w.2.length with
      | none => st.onNet t fun n => { n with todo := n.todo.drop 1, err := stDenied }
      | some j =>
        match st.request (reqPkt 2 5 m j a w.2.length 0 w.2) (.unitWrite t) with
        | none => st
        | some (s1, true) => (s1.dropLines m a w.2.length).onNet t fun n => { n with todo := n.todo.drop 1, waiting := n.waiting + 1 }
        | some (s1, false) => s1.onNet t fun n => { n with todo := n.todo.drop 1, err := stMemberLost }
    | _ => st) s

/-! ### Items -/

/-- One unit of a command's work. -/
structure XItem where
  /-- Ranges it reads. -/
  reads : List (Nat × Nat)
  /-- Ranges it writes. -/
  dst : List (Nat × Nat)
  /-- Bytes of each range written, from the state it reads. -/
  out : State → List Bytes

/-- Code of a pad value (R268). -/
def XCmd.padCode (d : XCmd) : Nat :=
  if d.y.mode = 1 then (if d.f = .s16 then d.padValue.toNat / 2 ^ 16 else d.padValue.toNat) else 0

/-- EXPAND: one row of the expanded buffer (R270, R271). -/
def XCmd.expandItem (d : XCmd) (t r : Nat) : XItem :=
  let o := d.outAt r
  let px := d.taps.map fun k => d.pixel o.1 o.2 k
  let live := px.filterMap id
  let blk := d.f.isBlock
  { reads := live.map d.pixRange ++ (if blk then live.map d.scaleRange else [])
    dst := [(d.output + r * d.outPitch, elemBytes d.f d.kExt)] ++
      (if blk then [(d.outputAux + r * d.outAuxPitch, d.kExt / 32)] else [])
    out := fun s =>
      let codes := px.flatMap fun p => (List.range d.cpad).map fun c =>
        if c < d.c then
          match p with
          | some q => s.xuCode t d.f (d.pixRange q).1 c
          | none => d.padCode
        else 0
      let scales := px.flatMap fun p => (List.range (d.cpad / 32)).map fun b =>
        match p with
        | some q => BitVec.ofNat 8 (s.xuNum t ((d.scaleRange q).1 + b) 1)
        | none => 0x7F
      [packCodes d.f codes] ++ (if blk then [scales] else []) }

/-- Sum of contributions in order, from +0 (R276). -/
def sumFrom0 (l : List (BitVec 32)) : BitVec 32 := l.foldl hAdd 0

/-- Address of entry (r, t', c) of the expanded gradient. -/
def XCmd.entry (d : XCmd) (r t' c : Nat) : Nat := d.output + r * d.outPitch + (t' * d.cpad + c) * 4

/-- FOLD: one element of the image (R275 to R277). -/
def XCmd.foldItem (d : XCmd) (t iy ix c : Nat) : XItem :=
  let es := (List.range (d.y.cnt * d.x.cnt)).flatMap fun r =>
    (d.taps.zipIdx.filter fun k => d.pixel (d.outAt r).1 (d.outAt r).2 k.1 == some (iy, ix)).map fun k => d.entry r k.2 c
  { reads := es.map fun a => (a, 4)
    dst := [d.imgElem iy ix c]
    out := fun s => [toLE 4 (sumFrom0 (es.map fun a => BitVec.ofNat 32 (s.xuNum t a 4))).toNat] }

/-- Codes of the taps of a pooled element, pad taps with their pad value, or none when `skipPad`. -/
def XCmd.tapCodes (d : XCmd) (s : State) (t oy ox c : Nat) (skipPad : Bool) : List (Option Nat) :=
  (List.range (d.y.k * d.x.k)).map fun k =>
    if skipPad && d.padTap oy ox k then none
    else match d.pixel oy ox k with
      | some p => some (s.xuCode t d.f (d.pixRange p).1 c)
      | none => some d.padCode

/-- Order of R279: −0 ranks below +0. -/
def Val.below (a b : Val) : Bool := a.lt b || (a.isZero && b.isZero && a.neg && !b.neg)

/-- Largest of a list of codes and the first tap that holds it; a NaN wins (R279). -/
def maxTap (f : Fmt) (l : List Nat) : Nat × Nat :=
  match l.findIdx? fun c => (decodeF f c).isNan with
  | some i => (f.nanCode, i)
  | none =>
    l.zipIdx.foldl (fun (b : Nat × Nat) x => if (decodeF f b.1).below (decodeF f x.1) then x else b) (l.headD 0, 0)

/-- A value divided by a natural number, with the lost bits kept as a sticky bit: rounding the result to a format gives
the rounded quotient. -/
def Val.divNat (v : Val) (n : Nat) : Val :=
  match v with
  | .fin neg m e =>
    let q := m * 2 ^ 80 / n
    .fin neg (2 * q + if m * 2 ^ 80 % n = 0 then 0 else 1) (e - 81)
  | x => x

/-- Average of taps (R280). -/
def avgTaps (f : Fmt) (l : List Nat) : Nat :=
  if l = [] then 0
  else
    let sum := sumFrom0 (l.map fun c => toH (decodeF f c))
    let q := (hval sum).divNat l.length
    if f = .s16 then (convRne .s16 (decodeF .h32 (conv .h32 .rto 0 false q).code)).code else (convRne .h32 q).code

/-- POOL_MAX and POOL_AVG: the channels of one output position (R279, R280). -/
def XCmd.poolItem (d : XCmd) (t : Nat) (o : Nat × Nat) : XItem :=
  let i := o.1 - d.y.o0
  let j := o.2 - d.x.o0
  let px := (List.range (d.y.k * d.x.k)).filterMap fun k =>
    if d.op = 4 && !d.countPad && d.padTap o.1 o.2 k then none else d.pixel o.1 o.2 k
  { reads := px.map d.pixRange
    dst := [d.poolRange i j] ++ (if d.op = 3 && d.index then [d.idxRange i j] else [])
    out := fun s =>
      if d.op = 3 then
        let m := (List.range d.c).map fun c => maxTap d.f ((d.tapCodes s t o.1 o.2 c false).filterMap id)
        [packCodes d.f (m.map (·.1))] ++ (if d.index then [m.flatMap fun x => toLE 2 x.2] else [])
      else [packCodes d.f ((List.range d.c).map fun c =>
        avgTaps d.f ((d.tapCodes s t o.1 o.2 c (!d.countPad)).filterMap id))] }

/-- Taps a pooled position counts (R280, R281). -/
def XCmd.counted (d : XCmd) (o : Nat × Nat) : List Nat :=
  (List.range (d.y.k * d.x.k)).filter fun k => d.countPad || !d.padTap o.1 o.2 k

/-- POOL_GRAD: one element of the image (R281). -/
def XCmd.gradItem (d : XCmd) (t iy ix c : Nat) : XItem :=
  let ga := fun (o : Nat × Nat) => (d.poolRange (o.1 - d.y.o0) (o.2 - d.x.o0)).1 + c * 4
  let ia := fun (o : Nat × Nat) => (d.idxRange (o.1 - d.y.o0) (o.2 - d.x.o0)).1 + c * 2
  let hits := fun (o : Nat × Nat) (k : Nat) => d.pixel o.1 o.2 k == some (iy, ix)
  let near := d.positions.filter fun o => (List.range (d.y.k * d.x.k)).any (hits o)
  { reads := near.map (fun o => (ga o, 4)) ++ (if d.index then near.map fun o => (ia o, 2) else [])
    dst := [d.imgElem iy ix c]
    out := fun s =>
      let cs := near.flatMap fun o =>
        let g := BitVec.ofNat 32 (s.xuNum t (ga o) 4)
        if d.index then (if hits o (s.xuNum t (ia o) 2) then [g] else [])
        else ((d.counted o).filter (hits o)).map fun _ => toH ((hval g).divNat (d.counted o).length)
      [toLE 4 (sumFrom0 cs).toNat] }

/-- Image elements of FOLD and POOL_GRAD. -/
def XCmd.imageElems (d : XCmd) : List (Nat × Nat × Nat) :=
  (List.range d.ihCnt).flatMap fun i => (List.range d.x.n).flatMap fun x => (List.range d.c).map fun c => (d.iy0 + i, x, c)

/-! ### Crop-and-resize (08 R282) -/

/-- H32 word of a natural number. -/
def hNat (n : Nat) : BitVec 32 := toH (.fin false n 0)
/-- Whether `0 ≤ y ≤ n - 1`; false for a NaN. -/
def inAxis (y : BitVec 32) (n : Nat) : Bool :=
  !(hval y).isNan && !(hval y).lt (.fin false 0 0) && !(Val.fin false (n - 1) 0).lt (hval y)
/-- Floor of a value that is not negative. -/
def floorNat (v : Val) : Nat :=
  match v with
  | .fin _ m e => if 0 ≤ e then m * 2 ^ e.toNat else m / 2 ^ (-e).toNat
  | _ => 0
/-- Sample coordinate of output index `i` of `out` between `a` and `b` on an axis of `n` (R282). -/
def sampleAt (nrm : Bool) (a b : BitVec 32) (n out i : Nat) : BitVec 32 :=
  let ya := if nrm then hMul a (hNat (n - 1)) else a
  let yb := if nrm then hMul b (hNat (n - 1)) else b
  if 1 < out then hFma (toH ((hval (hSub yb ya)).divNat (out - 1))) (hNat i) ya
  else hMul (hAdd ya yb) 0x3F000000

/-- Bilinear sample of four pixels, in the output format (R282, R138). -/
def bilinear (fo : Fmt) (fy fx p00 p01 p10 p11 : BitVec 32) : Nat :=
  let top := hFma (hSub p01 p00) fx p00
  let bot := hFma (hSub p11 p10) fx p10
  let v := ((hval (hSub bot top)).mul (hval fy)).add (hval top)
  if fo = .s16 then (convRne .s16 (decodeF .h32 (conv .h32 .rto 0 false v).code)).code else (convRne .h32 v).code

/-- The four pixels of a sample and its fractions: rows, columns, fy, fx. -/
structure CropAt where
  yl : Nat
  yh : Nat
  xl : Nat
  xh : Nat
  fy : BitVec 32
  fx : BitVec 32
  deriving DecidableEq, Repr

/-- Where a sample reads, none outside the image. -/
def cropAt (h w : Nat) (y x : BitVec 32) : Option CropAt :=
  if inAxis y h && inAxis x w then
    let yl := floorNat (hval y)
    let xl := floorNat (hval x)
    some { yl := yl, yh := min (yl + 1) (h - 1), xl := xl, xh := min (xl + 1) (w - 1), fy := hSub y (hNat yl), fx := hSub x (hNat xl) }
  else none

/-- Extrapolation value in the output format. -/
def padOut (fo : Fmt) (v : BitVec 32) : Nat := if fo = .s16 then (convRne .s16 (hval v)).code else v.toNat

/-- CROP_RESIZE: the channels of output position (i, j) of box `k`; `box` gives its four coordinates. -/
def XCmd.cropItem (d : XCmd) (t k i j : Nat) (box : List (BitVec 32)) : XItem :=
  let y := sampleAt d.norm (box.getD 0 0) (box.getD 2 0) d.y.n d.y.cnt i
  let x := sampleAt d.norm (box.getD 1 0) (box.getD 3 0) d.x.n d.x.cnt j
  let at_ := cropAt d.y.n d.x.n y x
  let so := elemBytes d.fo 1
  { reads := match at_ with
      | some a => [(a.yl, a.xl), (a.yl, a.xh), (a.yh, a.xl), (a.yh, a.xh)].map d.pixRange
      | none => []
    dst := [(d.output + (k * d.y.cnt + i) * d.outPitch + j * d.c * so, d.c * so)]
    out := fun s =>
      let p := fun a b c => toH (decodeF d.f (s.xuCode t d.f (d.pixRange (a, b)).1 c))
      [packCodes d.fo ((List.range d.c).map fun c => match at_ with
        | some a => bilinear d.fo a.fy a.fx (p a.yl a.xl c) (p a.yl a.xh c) (p a.yh a.xl c) (p a.yh a.xh c)
        | none => padOut d.fo d.padValue)] }

/-- Box list of a CROP_RESIZE. -/
def XCmd.boxList (d : XCmd) : Nat × Nat := (d.imageAux, 16 * d.boxes)
/-- Coordinates of box `k`. -/
def State.xuBox (s : State) (t : Nat) (d : XCmd) (k : Nat) : List (BitVec 32) :=
  (List.range 4).map fun i => BitVec.ofNat 32 (s.xuNum t (d.imageAux + 16 * k + 4 * i) 4)

/-- Index plane of a POOL_GRAD, one range for each position. -/
def XCmd.idxPlane (d : XCmd) : List (Nat × Nat) :=
  if d.op = 5 && d.index then d.positions.map fun o => d.idxRange (o.1 - d.y.o0) (o.2 - d.x.o0) else []

/-- The items of a command; `s` gives the box list. -/
def XCmd.items (d : XCmd) (s : State) (t : Nat) : List XItem :=
  match d.op with
  | 1 => (List.range (d.y.cnt * d.x.cnt)).map (d.expandItem t)
  | 2 => d.imageElems.map fun e => d.foldItem t e.1 e.2.1 e.2.2
  | 3 => d.positions.map (d.poolItem t)
  | 4 => d.positions.map (d.poolItem t)
  | 5 => d.imageElems.map fun e => d.gradItem t e.1 e.2.1 e.2.2
  | _ => (List.range d.boxes).flatMap fun k => (List.range (d.y.cnt * d.x.cnt)).map fun r =>
      d.cropItem t k (r / d.x.cnt) (r % d.x.cnt) (s.xuBox t d k)

/-! ### Checks (08 R267) -/

/-- Image rows of a CROP_RESIZE: all it may sample (DEDUCED, log entry 50). -/
def XCmd.imageRows (d : XCmd) : List (Nat × Nat) :=
  (List.range d.y.n).map fun i => (d.image + i * d.imPitch, d.ib (d.x.n * d.c))

/-- Whether one output position reads an element of the written rows of FOLD or POOL_GRAD on an axis (R278). -/
def Axis.reads (a : Axis) (lo n : Nat) (o : Nat) : Bool :=
  (List.range a.k).any fun k => (a.map o k).any fun i => decide (lo ≤ i ∧ i < lo + n)
/-- The coverage rule (R278). -/
def XCmd.covered (d : XCmd) : Bool :=
  let ys := (List.range d.y.extent.toNat).filter (d.y.reads d.iy0 d.ihCnt)
  let xs := (List.range d.x.extent.toNat).filter (d.x.reads 0 d.x.n)
  ys == [] || xs == [] || ((ys.all fun o => decide (d.y.o0 ≤ o ∧ o < d.y.o0 + d.y.cnt)) &&
    xs.all fun o => decide (d.x.o0 ≤ o ∧ o < d.x.o0 + d.x.cnt))

/-- Pitches that hold their rows (DEDUCED, log entry 49). -/
def XCmd.pitchOk (d : XCmd) : Bool :=
  let row := d.ib (d.x.n * d.c)
  let blk := d.f.isBlock
  let out := match d.op with
    | 1 => elemBytes d.f d.kExt
    | 2 => d.kExt * 4
    | 6 => elemBytes d.fo (d.x.cnt * d.c)
    | _ => d.ib (d.x.cnt * d.c)
  decide (row ≤ d.imPitch) && decide (out ≤ d.outPitch) &&
  (!(d.op == 1 && blk) || (decide (d.x.n * (d.c / 32) ≤ d.imAuxPitch) && decide (d.kExt / 32 ≤ d.outAuxPitch))) &&
  (!((d.op == 3 || d.op == 5) && d.index) || decide (d.x.cnt * d.c * 2 ≤ d.outAuxPitch))

/-- Whether a range lies wholly in the issuing tile's cistern. -/
def inCistern (t : Nat) (r : Nat × Nat) : Bool := inside r.1 r.2 (cisAddr t 0) cisBytes

/-- Step 4 of R267, but for the contents of an index plane (DEDUCED, log entry 50). -/
def XCmd.consistent (d : XCmd) (s : State) (t : Nat) (its : List XItem) : Bool :=
  let win := d.op == 6 || (decide ((d.y.o0 + d.y.cnt : Int) ≤ d.y.extent) && decide ((d.x.o0 + d.x.cnt : Int) ≤ d.x.extent))
  let norm := fun (r : Nat × Nat) => (s.normAddr r.1 r.2, r.2)
  let wr := its.flatMap (·.dst)
  let rd := its.flatMap (·.reads) ++ d.idxPlane ++ (if d.op = 6 then [d.boxList] else [])
  win && (!d.back || (decide (d.iy0 + d.ihCnt ≤ d.y.n) && d.covered)) && d.pitchOk &&
  (!(d.op == 1 || d.op == 2) || decide (d.y.cnt * d.x.cnt ≤ 65536)) &&
  (!(d.op == 1 && d.f.isBlock) || d.c % 32 == 0) &&
  (!d.omit_ || d.y.mode == 0) &&
  (!(d.y.mode == 1 && (d.op == 1 || d.op == 3 || d.op == 4)) || (d.f == .s16 && d.padValue.toNat % 2 ^ 16 == 0)) &&
  (d.op != 1 || wr.all fun r => inCistern t (norm r)) &&
  !wr.any fun x => rd.any fun y => overlaps (norm x).1 x.2 (norm y).1 y.2

/-- Steps 2 to 4 of R267, then R339: the status before any element is read (DEDUCED, log entry 50). -/
def XCmd.status (d : XCmd) (s : State) (t : Nat) (src : ReqSrc) (its : List XItem) : Nat :=
  let rd := (if d.op = 6 then d.boxList :: d.imageRows else its.flatMap (·.reads)) ++ d.idxPlane
  let wr := its.flatMap (·.dst)
  if d.op ≠ 6 && (decide (d.y.extent < 1) || decide (d.x.extent < 1)) then stExtentEmpty
  else
    let a := s.rangesStatus src false false rd
    let b := s.rangesStatus src false true wr
    if a ≠ stOK then a else if b ≠ stOK then b
    else if !d.consistent s t its then stBadParam
    else if (s.localRanges (rd ++ wr)).any fun r => hbmAny s.groupOff r.1 r.2 then stNoResource
    else stOK

/-! ### Running a command -/

/-- The command in progress ends with a status; its write-back follows. -/
def State.xuEnd (s : State) (t status omitted : Nat) : State :=
  let d : UnitDone :=
    { status := status, omitted := omitted, dropped := false, maxError := 0, escaped := 0, streamBytes := 0, op := 0 }
  s.onTile t fun x => { x with xuDone := some d }

/-- Writes an item: its local pieces now, its remote ones as requests. True when every line took its bytes. -/
def State.xuWrite (s : State) (t : Nat) (l : List (Nat × Bytes)) : State × Bool :=
  l.foldl (fun x w =>
    match x.1.placeOf w.1 w.2.length with
    | .loc a => let y := x.1.store 3 a w.2; (y.1, x.2 && y.2)
    | _ => (x.1.onNet t fun n => { n with todo := n.todo ++ (pieces w.1 w.2.length).map fun p => (p.1, (w.2.drop (p.1 - w.1)).take p.2) }, x.2))
    (s, true)

/-- Reads the operands of items in order, up to the first that meets a line it cannot read; how many came before it. -/
def State.xuReads (s : State) : List XItem → State × Nat
  | [] => (s, 0)
  | it :: r =>
    let rd := s.loadAll 3 (s.localRanges it.reads)
    if !rd.2 then (rd.1, 0)
    else
      let n := rd.1.xuReads r
      (n.1, n.2 + 1)

/-- Writes items in order, but for the bytes of output lines that `held` names; false when a line refused its bytes. -/
def State.xuWrites (s : State) (t : Nat) (held : List (Nat × Nat)) : List XItem → State × Bool
  | [] => (s, true)
  | it :: r =>
    let l := (it.dst.map (·.1)).zip (it.out s)
    let free := if held = [] then l else (l.flatMap fun w => (List.range w.2.length).map fun i => (w.1 + i, [w.2.getD i 0])).filter
      fun w => !held.any fun h => decide (h.1 / 64 ≤ w.1 / 64 ∧ w.1 / 64 ≤ (h.1 + h.2 - 1) / 64)
    let wr := s.xuWrite t free
    if wr.2 then wr.1.xuWrites t held r else wr

/-- Carries out items in order. An item that cannot read a line ends the work with UNCORRECTABLE: none from it on is written,
nor, but for FOLD and POOL_GRAD, any output line that depends on an unreadable line (R288). -/
def State.xuItems (s : State) (t : Nat) (back : Bool) (its : List XItem) : State × Nat :=
  let rd := s.xuReads its
  let bad := (its.drop rd.2).filter fun it => !(rd.1.loadAll 3 (rd.1.localRanges it.reads)).2
  let wr := rd.1.xuWrites t (if back then [] else bad.flatMap (·.dst)) (its.take rd.2)
  (wr.1, if wr.2 && rd.2 == its.length then stOK else stUncorrectable)

/-- Runs a checked command whose operands can be read. -/
def State.xuRun (s : State) (t : Nat) (src : ReqSrc) (d : XCmd) (its : List XItem) : State :=
  let w := s.xuItems t d.back its
  (w.1.xuSend t src).xuEnd t w.2 d.omitted

/-- What a command reads before anything else: the index plane or the box list that its checks rest on. -/
def XCmd.lists (d : XCmd) : List (Nat × Nat) := d.idxPlane ++ if d.op = 6 then [d.boxList] else []
/-- Whether an index plane names a tap that is not there (step 4 of R267). -/
def State.xuBadIndex (s : State) (t : Nat) (d : XCmd) : Bool :=
  d.idxPlane.any fun r => (List.range d.c).any fun c => decide (d.y.k * d.x.k ≤ s.xuNum t (r.1 + 2 * c) 2)
/-- Asks for the remote pieces of ranges, while no read has failed; whether nothing more is to come. -/
def State.xuFetch (s : State) (t : Nat) (src : ReqSrc) (l : List (Nat × Nat)) : State × Bool :=
  let s1 := if ((s.tiles[t]?).map (·.xuNet.err)).getD stOK ≠ stOK then s else (s.remotePieces l).foldl (fun st p => st.xuAsk t src p) s
  let net := ((s1.tiles[t]?).map (·.xuNet)).getD UnitNet.none
  (s1, net.waiting == 0 && (net.err != stOK || (s1.remotePieces l).all fun p => net.asked.contains p.1))
/-- Status of the remote reads of tile `t`'s command. -/
def State.xuErr (s : State) (t : Nat) : Nat := ((s.tiles[t]?).map (·.xuNet.err)).getD stOK

/-- The rest of a checked command once its lists have come: the checks that rest on them, the other operands, the work. -/
def State.xuGo (s : State) (t : Nat) (r : UnitReq) (src : ReqSrc) (d : XCmd) : State :=
  let its := d.items s t
  let pre := s.loadAll 3 (s.localRanges d.lists)
  let s1 := pre.1
  if !pre.2 then s1.xuEnd t stUncorrectable 0
  else if s1.xuBadIndex t d then s1.xuEnd t stBadParam 0
  else if d.status s1 t src its ≠ stOK then s1.xuEnd t (d.status s1 t src its) 0
  else
    let rd := its.flatMap (·.reads)
    let wr := s1.localRanges (its.flatMap (·.dst))
    if (s1.localRanges rd ++ wr).any fun x => s1.mustWait x.1 x.2 then s1
    else
      let f := s1.xuFetch t src rd
      if !f.2 then f.1
      else if f.1.xuErr t ≠ stOK then f.1.xuEnd t (f.1.xuErr t) 0
      else match wr.findSome? fun x => f.1.lockOn x.1 x.2 with
        | some lk => f.1.hazard (some (r.kid, r.t, r.p, r.bundle)) lk
        | none => f.1.xuRun t src d its

/-- Runs the XU's next command when its operation is one of this row's (R263, R267). An XU that a BLOCK_RESET
stops, or whose kernel stops for a fault, starts nothing (R289; 17 R611). -/
def State.xuRow (s : State) (t : Nat) (mine : Nat → Bool) : State :=
  match (s.tiles[t]?).bind fun x => if x.xuDone.isNone then x.xu.head? else none with
  | none => s
  | some r =>
    let src : ReqSrc := .path r.t r.p r.seq r.bundle r.kid
    if s.blocked 4 t 0 || s.faulted src then s
    else
      match s.load 3 (cisAddr t (r.base + 128 * r.done)) 128 with
      | (s1, none) => if mine 0 then s1.xuEnd t stUncorrectable 0 else s
      | (_, some b) =>
        let d := xcmdOf b
        let st0 := d.status s t src ((d.items s t).map fun it => if d.op = 6 then { it with reads := [] } else it)
        if !mine d.op then s
        else if !xcmdOk b then s.xuEnd t stBadParam 0
        else if st0 ≠ stOK then s.xuEnd t st0 0
        else if (s.localRanges d.lists).any fun x => s.mustWait x.1 x.2 then s
        else
          let f := s.xuFetch t src d.lists
          if !f.2 then f.1
          else if f.1.xuErr t ≠ stOK then f.1.xuEnd t (f.1.xuErr t) 0
          else f.1.xuGo t r src d

/-- EXPAND. An operation that is not defined ends here with BAD_PARAM. -/
def expandStep (t : Nat) (s : State) : State := s.xuRow t fun op => !(2 ≤ op && op ≤ 6)
def execExpand (t : Nat) (s : State) : Host.Outcome State Fault Refusal := .next (expandStep t s)
/-- FOLD. -/
def foldGradStep (t : Nat) (s : State) : State := s.xuRow t (· == 2)
def execFoldGrad (t : Nat) (s : State) : Host.Outcome State Fault Refusal := .next (foldGradStep t s)
/-- POOL_MAX. -/
def poolMaxStep (t : Nat) (s : State) : State := s.xuRow t (· == 3)
def execPoolMax (t : Nat) (s : State) : Host.Outcome State Fault Refusal := .next (poolMaxStep t s)
/-- POOL_AVG. -/
def poolAvgStep (t : Nat) (s : State) : State := s.xuRow t (· == 4)
def execPoolAvg (t : Nat) (s : State) : Host.Outcome State Fault Refusal := .next (poolAvgStep t s)
/-- POOL_GRAD. -/
def poolGradStep (t : Nat) (s : State) : State := s.xuRow t (· == 5)
def execPoolGrad (t : Nat) (s : State) : Host.Outcome State Fault Refusal := .next (poolGradStep t s)
/-- CROP_RESIZE. -/
def cropResizeStep (t : Nat) (s : State) : State := s.xuRow t (· == 6)
def execCropResize (t : Nat) (s : State) : Host.Outcome State Fault Refusal := .next (cropResizeStep t s)

/-! ### Completion (08 R287) -/

/-- A unit's request after entry `done` ended: gone on a failure or after its last entry. -/
def unitNext (l : List UnitReq) (status : Nat) : List UnitReq :=
  match l with
  | [] => []
  | r :: q => if status ≠ stOK || r.count ≤ r.done + 1 then q else { r with done := r.done + 1 } :: q

/-- Ends a unit's entry: the rest of a failed request returns ABORTED, and a request that is over completes its
instruction. -/
def State.unitEnd (s : State) (r : UnitReq) (status : Nat) : State :=
  if status ≠ stOK then (s.abortUnit r (r.done + 1)).moveEnd r.t r.p r.seq r.bundle r.kid status
  else if r.count ≤ r.done + 1 then s.moveEnd r.t r.p r.seq r.bundle r.kid stOK
  else s

/-- EXPANSION_COMPLETE: once the last write is acknowledged (R287). Writes that a stopping kernel has not sent stay unsent
(R289). -/
def expansionCompleteStep (t : Nat) (s : State) : State :=
  match s.tiles[t]? with
  | none => s
  | some x =>
    match x.xu.head?, x.xuDone with
    | some r, some d =>
      let src : ReqSrc := .path r.t r.p r.seq r.bundle r.kid
      if x.xuNet.todo ≠ [] then (if s.faulted src then s else s.xuSend t src)
      else if x.xuNet.waiting ≠ 0 then s
      else
        let st := if d.status = stOK then x.xuNet.err else d.status
        let s1 := s.putFields (cisAddr t (r.base + 128 * r.done)) (xuBack { d with status := st })
        (s1.onTile t fun y => { y with xu := unitNext y.xu st, xuDone := none, xuNet := UnitNet.none }).unitEnd r st
    | _, _ => s
def execExpansionComplete (t : Nat) (s : State) : Host.Outcome State Fault Refusal := .next (expansionCompleteStep t s)

end Sys2Proof.Machine
end

