-- ==== Sys2Proof/Machine/FabricMsg.lean ====
section
/-! DEFINITION. Requests, responses and losses at the endpoint (11 R389 to R408): READ_REQ, WRITE_REQ and ATOMIC_REQ at
their destination, READ_RSP, WRITE_ACK and ATOMIC_RSP at their source, PEER_FENCE, GAP_TIMEOUT, BREAK, RESPONSE_TIMEOUT
and CONTROL_RSP; PDATA, HOLDINGS and RESTORE_DONE (16 R563, R579, R581). -/

namespace Sys2Proof.Machine

/-! ### At the destination (R389, R390, R393, R395) -/

/-- Answers a request on VC6, its tag echoed; it is in progress no more (R386). -/
def State.answer (s : State) (p : Pkt) (ty code a : Nat) (payload : Bytes) : State :=
  ((s.requestDone p).send { pktBlank with
    ty := ty, vc := 6, dest := p.src, tag := p.tag, code := code, a := BitVec.ofNat 48 a, len := payload.length, payload := payload }).1

/-- READ_REQ: the data with WGEN, or an error. -/
def readReqStep (s : State) : State :=
  match s.takeRx fun p => p.ty == 1 with
  | none => s
  | some (p, s1) =>
    let st := s1.requestStatus p 1 p.len
    if s1.requestWaits p 1 p.len then s
    else if st ≠ stOK then s1.answer p 4 st s1.fab.wgen.toNat []
    else match s1.load 6 p.a.toNat p.len with
      | (s2, some bs) => s2.answer p 4 stOK s2.fab.wgen.toNat bs
      | (s2, none) => s2.answer p 4 stUncorrectable s2.fab.wgen.toNat []
def execReadReq (s : State) : Host.Outcome State Fault Refusal := .next (readReqStep s)

/-- WRITE_REQ: the write, then WRITE_ACK. -/
def writeReqStep (s : State) : State :=
  match s.takeRx fun p => p.ty == 2 with
  | none => s
  | some (p, s1) =>
    let n := p.payload.length
    let st := s1.requestStatus p 2 n
    if s1.requestWaits p 2 n then s
    else if st ≠ stOK then s1.answer p 5 st 0 []
    else
      let r := s1.store 6 p.a.toNat p.payload
      r.1.answer p 5 (if r.2 then stOK else stUncorrectable) 0 []
def execWriteReq (s : State) : Host.Outcome State Fault Refusal := .next (writeReqStep s)

/-- New value of an atomic on words of `w` bits (R393): 1 ADD, 2 MIN, 3 MAX, 4 CAS. -/
def atomicNew (op : Nat) (signed : Bool) (w old operand compare : Nat) : Nat :=
  let b := operand % 2 ^ w
  let below := if signed then decide ((BitVec.ofNat w old).toInt < (BitVec.ofNat w b).toInt) else decide (old < b)
  match op with
  | 1 => (old + b) % 2 ^ w
  | 2 => if below then old else b
  | 3 => if below then b else old
  | _ => if old = compare % 2 ^ w then b else old

/-- ATOMIC_REQ: one indivisible line access, then ATOMIC_RSP with the old value (DEDUCED, log entry 84). -/
def atomicReqStep (s : State) : State :=
  match s.takeRx fun p => p.ty == 3 with
  | none => s
  | some (p, s1) =>
    let op := p.code % 16
    let kind := p.code / 16 % 4
    let n := atomicSize kind
    let st := if decide (1 ≤ op ∧ op ≤ 4) then s1.requestStatus p 4 n else stBadParam
    if s1.requestWaits p 4 n then s
    else if st ≠ stOK then s1.answer p 6 st 0 []
    else
      let old := s1.numAt p.a.toNat n
      let new := atomicNew op (2 ≤ kind) (8 * n) old (fld p.payload 0 8) (fld p.payload 8 8)
      let r := s1.store 6 p.a.toNat (toLE n new)
      if r.2 then r.1.answer p 6 stOK 0 (toLE 8 old) else r.1.answer p 6 stUncorrectable 0 []
def execAtomicReq (s : State) : Host.Outcome State Fault Refusal := .next (atomicReqStep s)

/-! ### At the source (R391, R392, R395, R399) -/

/-- Type of the response that a request waits for. -/
def RemoteFor.rsp : RemoteFor → Nat
  | .write _ _ => 5
  | .unitWrite _ => 5
  | .parity _ => 5
  | .atomic _ _ _ _ => 6
  | .reset _ _ => 0x21
  | _ => 4

/-- Source and priority of the descriptor in progress of a channel. -/
def State.actSrc (s : State) (mv ch : Nat) : Option (ReqSrc × Nat) :=
  match s.headReq mv ch, (s.chan? mv ch).bind (·.act) with
  | some r, some a => some (r.src, a.d.prio)
  | _, _ => none

/-- The rest of a burst that crosses a 512-byte boundary: its second READ_REQ (R390). -/
def State.readRest (s : State) (mv ch : Nat) (src : ReqSrc) (m a n : Nat) (what : RemoteFor) : State :=
  match s.reqJob src m 1 a n with
  | none => s.failAct mv ch stDenied
  | some j => (s.chanRequest mv ch (reqPkt 1 5 m j a n 0 []) what).getD s

/-- What an answered request of a mover channel completes with the data `bs`; none when the write it leads to must
wait. -/
def State.chanData (s : State) (mv ch dest : Nat) (what : RemoteFor) (bs : Bytes) : Option State :=
  match s.actSrc mv ch with
  | none => some s
  | some (src, prio) =>
    let less := s.waitLess mv ch
    match what with
    | .index _ _ =>
      match (less.chan? mv ch).bind (·.act) with
      | none => some less
      | some a =>
        let b := { a with list := a.list ++ bs }
        some (if b.list.length = 4 * b.d.dstS1 then less.listWhole mv ch src b else less.setAct mv ch b)
    | .read _ _ dst got (some (a, n)) => some (less.readRest mv ch src dest a n (.read mv ch dst (got ++ bs) none))
    | .read _ _ dst got none => less.moverPut mv ch src prio dst (got ++ bs)
    | .cmp _ _ other off got (some (a, n)) => some (less.readRest mv ch src dest a n (.cmp mv ch other off (got ++ bs) none))
    | .cmp _ _ other off got none =>
      let whole := got ++ bs
      match less.moverGet mv src other whole.length with
      | (_, .later) => none
      | (s1, .err st) => some (s1.failAct mv ch st)
      | (s1, .ask m x j) => s1.readReq mv ch m j x whole.length fun rest => .cmpWith mv ch off whole [] rest
      | (s1, .data cs) => some (s1.onAct mv ch fun y => y.compared off whole cs)
    | .cmpWith _ _ off data got (some (a, n)) =>
      some (less.readRest mv ch src dest a n (.cmpWith mv ch off data (got ++ bs) none))
    | .cmpWith _ _ off data got none => some (less.onAct mv ch fun y => y.compared off data (got ++ bs))
    | .atomic _ _ result kind =>
      if result = 0 then some less
      else if less.mustWait result 8 || (less.lockOn result 8).isSome then none
      else
        let r := less.store (mvSrc mv) result (toLE 8 (extAtomic kind (fld bs 0 8)))
        some (if r.2 then r.1 else r.1.failAct mv ch stUncorrectable)
    | _ => some less

/-- Step of the parity pass in progress of a job. -/
def Job.passStep (j : Job) : Nat := j.openStep.getD (((j.restore.bind (·.chosen)).map (·.1)).getD 0)

/-- Completes a remote request with the status and data of its response (R391); none when what follows must wait. A
parity packet counts as acknowledged by WRITE_ACK OK alone (16 R564) (DEDUCED, log entry 85). -/
def State.remoteEnd (s : State) (r : Remote) (st : Nat) (bs : Bytes) : Option State :=
  match r.what with
  | .unitRead t addr => some (s.onNet t fun n =>
      { n with waiting := n.waiting - 1, got := if st = stOK then n.got ++ [(addr, bs)] else n.got,
               err := if n.err = stOK then st else n.err })
  | .unitWrite t => some (s.onNet t fun n => { n with waiting := n.waiting - 1, err := if n.err = stOK then st else n.err })
  | .reset uid _ => some (s.finishUid uid st 0 0 0)
  | .parity h =>
    if st ≠ stOK then some s
    else match s.job? h with
      | none => some s
      | some j => some (((s.onJob h fun x => { x with pdataOut := x.pdataOut - 1 }).parityOn h j.passStep).tryArrive h)
  | .rebuild h sym => some (if st = stOK then s.rebuildGot h sym bs else s.endRestore h st)
  | what =>
    match what.chan with
    | none => some s
    | some (mv, ch) =>
      if st ≠ stOK then some ((s.waitLess mv ch).failAct mv ch st) else s.chanData mv ch r.dest what bs

/-- The request that a response answers, and the state without it. -/
def State.takeRemote (s : State) (q : Remote → Bool) : Option (Remote × State) :=
  (s.fab.remotes.find? q).map fun r => (r, { s with fab := { s.fab with remotes := s.fab.remotes.filter fun x => x.tag != r.tag } })

/-- Whole lines of a read response kept in the remote read buffer, and the newest WGEN (R398, R399). -/
def State.keepLines (s : State) (r : Remote) (p : Pkt) : State :=
  let w := BitVec.ofNat 32 p.a.toNat
  let l0 := ceilDiv r.addr 64
  let k := (r.addr + p.payload.length) / 64 - l0
  let new := (List.range k).map fun i =>
    ({ peer := p.src, line := l0 + i, wgen := w, data := fldBytes p.payload ((l0 + i) * 64 - r.addr) 64 } : BufLine)
  { s with fab := { s.fab with
      peerGen := (s.fab.peerGen.filter fun e => e.1 != p.src) ++ [(p.src, w)]
      readBuf := (s.fab.readBuf.filter fun b => !(b.peer == p.src && new.any fun y => y.line == b.line)) ++ new } }

/-- BASIN_HAZARD of a response whose data meets a read lock: it waits (05 R167). -/
def State.dataHazard (s : State) (what : RemoteFor) (bs : Bytes) : State :=
  let put := fun mv ch dst n => match s.actSrc mv ch with
    | some x => s.putHazard x.1 dst n
    | none => s
  match what with
  | .read mv ch dst got none => put mv ch dst (got ++ bs).length
  | .atomic mv ch result _ => put mv ch result 8
  | _ => s

/-- Takes a response of a type: it completes its request, or is discarded where no request waits for it (R406). -/
def State.response (s : State) (ty : Nat) : State :=
  match s.takeRx fun p => p.ty == ty with
  | none => s
  | some (p, s1) =>
    match s1.takeRemote fun r => r.tag == p.tag && r.dest == p.src && r.what.rsp == ty with
    | none => s1
    | some (r, s2) =>
      let s3 := if ty = 4 then s2.keepLines r p else s2
      ((s3.remoteEnd r p.code p.payload).map State.settle).getD (s.dataHazard r.what p.payload)

/-- READ_RSP. -/
def readRspStep (s : State) : State := s.response 4
def execReadRsp (s : State) : Host.Outcome State Fault Refusal := .next (readRspStep s)

/-- WRITE_ACK. -/
def writeAckStep (s : State) : State := s.response 5
def execWriteAck (s : State) : Host.Outcome State Fault Refusal := .next (writeAckStep s)

/-- ATOMIC_RSP. -/
def atomicRspStep (s : State) : State := s.response 6
def execAtomicRsp (s : State) : Host.Outcome State Fault Refusal := .next (atomicRspStep s)

/-- PEER_FENCE: a read of the path fence register of a peer (R400, R401) (DEDUCED, log entry 75). -/
def peerFenceStep (peer : Nat) (s : State) : State :=
  match s.fab.modId, s.fab.dims with
  | some _, some d =>
    if !inTorus d peer then s
    else match s.fenceRead peer with
      | none => s
      | some r => { r.1 with host := { r.1.host with readData := r.2, readPoison := false } }
  | _, _ => s
def execPeerFence (peer : Nat) (s : State) : Host.Outcome State Fault Refusal := .next (peerFenceStep peer s)

/-! ### Loss (R404 to R408) -/

/-- Streams of a collective that come to this module. -/
def CollRun.ins (r : CollRun) : List StreamIn := r.recv ++ r.adders.flatMap fun a => [a.lower, a.upper]
/-- Whether a collective waits for an answer of module `m`: it keeps a packet sent there, or a range of its PERMUTE has not
landed there. -/
def State.awaits (s : State) (r : CollRun) (m : Nat) : Bool :=
  (s.cas.retain.any fun k => k.rid == r.rid && k.pkt.dest == m) ||
    (s.group? r.gid).any fun g => r.landing.any fun i => (r.table[i]?).any fun e => g.members.getD e.2.1 0 == m
/-- Collectives with something lost in the triple from module `m` to this one: data of a stream that is still open, or an
answer they wait for (12 R464) (DEDUCED, log entry 125). -/
def State.lostIn (s : State) (m vc : Nat) : State :=
  s.endColls (fun r => r.started && if vc = 6 then s.awaits r m else r.vc == vc && r.ins.any fun x => x.src == m && !x.ended)
    stMemberLost
/-- Collectives with something lost in the triple from this module to module `m`: data it has not answered, or an answer
to a stream of its (12 R464) (DEDUCED, log entry 125). -/
def State.lostOut (s : State) (m vc : Nat) : State :=
  s.endColls (fun r => r.started && if vc = 6 then r.ins.any fun x => x.src == m && x.acked else r.vc == vc && s.awaits r m)
    stMemberLost

/-- GAP_TIMEOUT: a missing packet of a triple to this module has not come. -/
def gapTimeoutStep (src vc : Nat) (s : State) : State :=
  match s.fab.triples.find? fun t => t.src == src && t.vc == vc with
  | none => s
  | some t =>
    if t.held = [] then s
    else
      let l := modFirst (fun x => x.src == src && x.vc == vc) (fun x => { x with held := [], broken := true }) s.fab.triples
      let s1 : State := { s with fab := { s.fab with triples := l } }
      let s2 := (s1.send (ctlPkt 7 src 0 (vc + t.expect.toNat * 2 ^ 16) [])).1
      ((s2.fabEvent 0x0026 0xFFFFFFFF src).lostIn src vc).settle
def execGapTimeout (src vc : Nat) (s : State) : Host.Outcome State Fault Refusal := .next (gapTimeoutStep src vc s)

/-- Completes with MEMBER_LOST every outstanding request that meets a test. -/
def State.loseRemotes (s : State) (q : Remote → Bool) : State :=
  (s.fab.remotes.filter q).foldl (fun st r =>
    match st.takeRemote fun x => x.tag == r.tag with
    | none => st
    | some (x, s1) => (s1.remoteEnd x stMemberLost []).getD s1) s

/-- The next packet of a triple from this module carries RESYNC. -/
def State.resyncNext (s : State) (dest vc : Nat) : State :=
  { s with fab := { s.fab with resync := (s.fab.resync.filter fun e => e != (dest, vc)) ++ [(dest, vc)] } }

/-- BREAK: the triple from this module to the sender of BREAK is broken. -/
def brkStep (s : State) : State :=
  match s.takeRx fun p => p.ty == 7 with
  | none => s
  | some (p, s1) =>
    let a := p.a.toNat
    let vc := a % 256
    if !ctlFieldsOk p 32 0 || 8 ≤ vc || a / 256 % 256 ≠ 0 || p.j ≠ 0 then s1
    else (((s1.loseRemotes fun r => r.dest == p.src && r.vc == vc).resyncNext p.src vc).lostOut p.src vc).settle
def execBrk (s : State) : Host.Outcome State Fault Refusal := .next (brkStep s)

/-- Modules whose answer a collective waits for. -/
def State.awaited (s : State) (r : CollRun) : List Nat :=
  ((s.group? r.gid).map (·.members)).getD [] |>.filter (s.awaits r)

/-- RESPONSE_TIMEOUT: no response t_rsp after the request was sent, or no answer to a packet of a collective (12 R464). -/
def responseTimeoutStep (of : Awaited) (s : State) : State :=
  match of with
  | .request tag =>
    match s.fab.remotes.find? fun r => r.tag == tag with
    | none => s
    | some r => ((s.loseRemotes fun x => x.tag == tag).resyncNext r.dest r.vc).settle
  | .collective rid =>
    match s.coll? rid with
    | none => s
    | some r =>
      let l := s.awaited r
      if l.isEmpty then s else (l.foldl (fun st m => st.resyncNext m r.vc) (s.endColl r stMemberLost)).settle
def execResponseTimeout (of : Awaited) (s : State) : Host.Outcome State Fault Refusal := .next (responseTimeoutStep of s)

/-- Whether CONTROL_RSP of a job answers a request. -/
def RemoteFor.answers (w : RemoteFor) (job : BitVec 64) : Bool :=
  match w with
  | .reset _ j => j == job
  | _ => false

/-- CONTROL_RSP: the answer to the reset request of its job (R379; 17 R613) (DEDUCED, log entry 76). -/
def controlRspStep (s : State) : State :=
  match s.takeRx fun p => p.ty == 0x21 with
  | none => s
  | some (p, s1) =>
    if p.a ≠ 0 || p.b23 ≠ 0 || p.flagRsv ≠ 0 || p.len ≠ 0 then s1
    else match s1.takeRemote fun r => r.dest == p.src && r.what.answers p.j with
      | none => s1
      | some (r, s2) => (s2.remoteEnd r p.code []).getD s2
def execControlRsp (s : State) : Host.Outcome State Fault Refusal := .next (controlRspStep s)

/-! ### Parity and restore (16 R563, R564, R579, R581) -/

/-- Whether a host guards the guard group of a member. -/
def Job.guards (j : Job) (m : Nat) : Bool :=
  let k := j.guardK
  k != 0 && j.members.contains m && (j.members.idxOf m / k + 1) % (j.members.length / k) == j.rank / k

/-- PDATA: the payload is added to the hosted generation, which is read first: where it cannot be, nothing is written
(10 R327). It waits for the zeroing of its generation (R564). -/
def pdataStep (s : State) : State :=
  match s.takeRx fun p => p.ty == 0x15 with
  | none => s
  | some (p, s1) =>
    let step := p.j.toNat
    let off := p.a.toNat % 2 ^ 32
    let pos := p.a.toNat / 2 ^ 32 % 256
    let seg := p.a.toNat / 2 ^ 40
    match s1.work.jobs.find? fun j => j.live && s1.trains j && j.guards p.src with
    | none => s1.answer p 5 stDenied 0 []
    | some j =>
      let q := bitOf pos 4
      let z := s1.segBytes j j.guardK
      let a := s1.genAt j (step % 2) + (if q then z else 0) + off
      let mine := seg < j.guardK && parityHost j.members.length j.guardK (j.members.idxOf p.src / j.guardK) seg q == j.rank
      let open_ := match j.restore with
        | some r => r.zeroed && (r.chosen.map (·.1)) == some step
        | none => decide (step ≤ j.nextStep)
      let n := p.payload.length
      if !mine || 32 ≤ pos || off % 512 ≠ 0 || z < off + n then s1.answer p 5 stDenied 0 []
      else if hbmAny s1.groupOff a n then s1.answer p 5 stNoResource 0 []
      else if !open_ || hbmAny (fun g => !s1.groupReady g) a n then s
      else
        let add := if q then gfScale (gfPow 2 (pos % 16)) p.payload else p.payload
        let old := s1.load 6 a n
        match old.2 with
        | none => old.1.answer p 5 stUncorrectable 0 []
        | some b =>
          let r := old.1.store 6 a (gfAdd b add)
          r.1.answer p 5 (if r.2 then stOK else stUncorrectable) 0 []
def execPdata (s : State) : Host.Outcome State Fault Refusal := .next (pdataStep s)

/-- HOLDINGS: a member's holdings of the old job; kept when this member has not begun its restore (DEDUCED, log entry 86). -/
def holdingsStep (s : State) : State :=
  match s.takeRx fun p => p.ty == 0x2D with
  | none => s
  | some (p, s1) =>
    match s1.jobOfPkt p with
    | none => s1
    | some j =>
      if !ctlFieldsOk p 32 64 || !j.members.contains p.src || !j.live then s1
      else
        let e := (j.members.idxOf p.src, holdingsOf p.payload)
        let put := fun (l : List (Nat × Holdings)) => (l.filter fun x => x.1 != e.1) ++ [e]
        match j.restore with
        | none => s1.onJob j.handle fun x => { x with early := put x.early }
        | some r =>
          if r.oldJob ≠ e.2.oldJob then s1
          else (s1.onRun j.handle fun x => { x with holdings := put x.holdings }).settle
def execHoldings (s : State) : Host.Outcome State Fault Refusal := .next (holdingsStep s)

/-- RESTORE_DONE: a member has completed its restore actions. -/
def restoreDoneStep (s : State) : State :=
  match s.takeRx fun p => p.ty == 0x22 with
  | none => s
  | some (p, s1) =>
    match s1.jobOfPkt p with
    | none => s1
    | some j =>
      if !ctlFieldsOk p 0 8 || !j.members.contains p.src then s1
      else (s1.onRun j.handle fun r => { r with done := r.done ++ [p.src] }).settle
def execRestoreDone (s : State) : Host.Outcome State Fault Refusal := .next (restoreDoneStep s)

end Sys2Proof.Machine
end

