-- ==== Sys2Proof/Machine/Fabric.lean ====
section
/-! DEFINITION. Links and the router (11): frames with retry and credits, link management messages, training, optical
calibration, forwarding, delivery in ESEQ order, the module ID, the map and the sluices. -/

namespace Sys2Proof.Machine

/-! ### Frames (11 R354 to R360) -/

/-- One step of the CRC-64 with the ECMA-182 polynomial, most significant bit first (PRESUMED, log entry 68). -/
def crcByte (c : BitVec 64) (b : BitVec 8) : BitVec 64 :=
  (List.range 8).foldl (fun c _ => if c.msb then (c <<< 1) ^^^ 0x42F0E1EBA9EA3693 else c <<< 1) (c ^^^ (b.zeroExtend 64 <<< 56))
/-- CRC-64 of a byte string (PRESUMED, log entry 68). -/
def crc64 (bs : Bytes) : BitVec 64 := bs.foldl crcByte 0

/-- Bytes of a frame. -/
def frameBytes (f : Frame) (ack : BitVec 32) (nak : Bool) : Bytes :=
  let head := toLE 8 0x0F0F5A5AF0F0A5A5 ++ toLE 4 f.seq.toNat ++ toLE 4 ack.toNat ++ toLE 2 (if nak then 1 else 0) ++ zeros 14 ++
    padTo 64 (f.credits.flatMap (toLE 2)) ++ padTo 64 f.lmsg ++ padTo 304 (f.slots.map (·.1)) ++ zeros 48 ++
    padTo 9728 (f.slots.flatMap fun x => padTo 32 x.2)
  head ++ toLE 8 (crc64 head).toNat ++ zeros 32

/-- Bit `k` of a frame: bit 0 of byte 0 first (DESIGN CHOICE, log entry 69). -/
def frameBit (d : Bytes) (k : Nat) : Bool := bitOf (fld d (k / 8) 1) (k % 8)
/-- The 5,140 information bits of codeword `i` of a frame (R354). -/
def codeword (d : Bytes) (i : Nat) : List Bool := (List.range 5140).map fun k => frameBit d (5140 * i + k)
/-- Lane on which codeword `i` of a frame travels on a port (R354, R363). -/
def Port.laneOf (q : Port) (i : Nat) : Nat := q.lane + i % q.width
/-- What a lane of a port carries of the last frame sent: its codewords, ascending (R354). -/
def Port.onLane (q : Port) (lane : Nat) : List (List Bool) :=
  ((List.range 16).filter fun i => q.laneOf i == lane).map (codeword q.txFrame)

/-- Slots of a packet with their tags: bit 0 VALID, 1 START, 2 END, 5:3 virtual channel (R356). -/
def pktFrameSlots (p : Pkt) : List (BitVec 8 × Bytes) :=
  let n := pktSlots p
  let b := pktBytes p
  (List.range n).map fun i =>
    (BitVec.ofNat 8 (1 + (if i = 0 then 2 else 0) + (if i + 1 = n then 4 else 0) + 8 * (p.vc % 8)), padTo 32 (fldBytes b (32 * i) 32))

/-- Whether frames of a port carry packets: not in training, and not on a port without packets (R353, R365, R373). -/
def portCarries (p : Port) : Bool := (p.st == .active || p.st == .degraded || p.st == .sleep) && !p.mute
/-- Whether a port holds credits for `n` slots of a class: of its reserve, and of the slots that no class reserves (R360)
(DESIGN CHOICE, log entry 123). -/
def Port.holds (q : Port) (c n : Nat) : Bool := decide (n ≤ q.credits.getD c 0 + q.shared)
/-- Credits for `n` slots of a class spent, the class's reserve first (DESIGN CHOICE, log entry 123). -/
def Port.spend (q : Port) (c n : Nat) : Port :=
  let own := min n (q.credits.getD c 0)
  { q with credits := modAt q.credits c (· - own), shared := q.shared - (n - own), lent := modAt q.lent c (· + (n - own)) }
/-- `n` slots of a class freed by the partner: what the class has of the slots beyond the reserves goes back first (DESIGN
CHOICE, log entry 123). -/
def Port.repay (q : Port) (c n : Nat) : Port :=
  let back := min n (q.lent.getD c 0)
  { q with credits := modAt q.credits c fun x => min 256 (x + (n - back)), shared := q.shared + back, lent := modAt q.lent c (· - back) }
/-- Whether the receive buffer, 256 slots for each class and 8,192 beyond, has room for `n` more slots of a class (R360). -/
def Port.roomFor (q : Port) (c n : Nat) : Bool := decide (((modAt q.used c (· + n)).map (· - 256)).sum ≤ 8192)

/-- A packet as it takes a link, which wraps its ring or not (R374). -/
def onLink (wrap : Bool) (p : Pkt) : Pkt := { p with dclass := p.dclass || wrap }

/-- The packet of channel `vc` a port may send next: the oldest of its class, with credits for every slot. -/
def readyOn (wrap : Bool) (q : Port) (vc : Nat) : Option Pkt :=
  let cls := fun p => pktCls (onLink wrap p)
  (q.outq.zipIdx.find? fun x => x.1.vc == vc && q.holds (cls x.1) (pktSlots x.1) &&
    (q.outq.take x.2).all fun y => cls y != cls x.1).map (·.1)

/-- The channel served next (R375): VC7 once in 16, VC0, VC6, VC1 to VC5 in turn, VC7. -/
def nextVc (wrap : Bool) (q : Port) : Option Nat :=
  let can := fun vc => (readyOn wrap q vc).isSome
  if can 7 && decide (15 ≤ q.arbVc7) then some 7
  else if can 0 then some 0
  else if can 6 then some 6
  else
    let order := (List.range 5).map fun i => 1 + (q.arbRr + i) % 5
    match order.find? can with
    | some v => some v
    | none => if can 7 then some 7 else none

/-- Takes the next packet of an output port into the slots to send, with its class for the link it takes (R374). -/
def portPick (wrap : Bool) (q : Port) : Option Port :=
  (nextVc wrap q).bind fun vc => (readyOn wrap q vc).map fun p =>
    let x := onLink wrap p
    { q.spend (pktCls x) (pktSlots x) with
      outq := dropFirst (fun y => y == p) q.outq
      arbRr := if 1 ≤ vc && vc ≤ 5 then vc % 5 else q.arbRr
      arbVc7 := if vc = 7 then 0 else q.arbVc7 + 1
      txPart := pktFrameSlots x }

/-- Up to `n` slots of the slot stream of a port. -/
def fillSlots (wrap : Bool) : Nat → Port → List (BitVec 8 × Bytes) → Port × List (BitVec 8 × Bytes)
  | 0, q, acc => (q, acc)
  | n + 1, q, acc =>
    match q.txPart with
    | x :: r => fillSlots wrap n { q with txPart := r } (acc ++ [x])
    | [] => match portPick wrap q with
      | some q1 => match q1.txPart with
        | x :: r => fillSlots wrap n { q1 with txPart := r } (acc ++ [x])
        | [] => (q1, acc)
      | none => (q, acc)

/-- FRAME_SEQ of a frame that is no new one and carries nothing: the last frame the partner has acknowledged, so that it is
never taken for one that the partner waits for (DESIGN CHOICE, log entry 69). -/
def Port.ackedSeq (q : Port) : BitVec 32 := ((q.replay.head?.map (·.seq)).getD q.txSeq) - 1

/-- The frame a port sends: one to send again, one with no valid slot while the replay buffer is full or the link trains,
or a new one (R358) (DESIGN CHOICE, log entry 69). -/
def portSend (wrap : Bool) (q : Port) : Port :=
  let last := q.ackedSeq
  if portTrains q then
    let f : Frame := { seq := last, credits := List.replicate 32 0, lmsg := q.lmsgOut.headD [], slots := [] }
    { q with lmsgOut := q.lmsgOut.drop 1, txFrame := frameBytes f q.rxSeq q.nak }
  else match q.resend with
    | f :: r => { q with resend := r, txFrame := frameBytes f q.rxSeq q.nak }
    | [] =>
      if 64 ≤ q.replay.length then
        { q with txFrame := frameBytes { seq := last, credits := List.replicate 32 0, lmsg := [], slots := [] } q.rxSeq q.nak }
      else
        let x := if portCarries q then fillSlots wrap 304 q [] else (q, [])
        let f : Frame := { seq := q.txSeq, credits := q.freed, lmsg := q.lmsgOut.headD [], slots := x.2 }
        { x.1 with txSeq := q.txSeq + 1, freed := List.replicate 32 0, lmsgOut := q.lmsgOut.drop 1, replay := q.replay ++ [f]
                   txFrame := frameBytes f q.rxSeq q.nak }

/-- Whether sequence number `a` is covered by `b` (wrapping order). -/
def seqCovered (a b : BitVec 32) : Bool := decide ((b - a).toNat < 2 ^ 31)

/-- The acknowledgement and the NAK flag of a frame (R358). -/
def portAck (q : Port) (ack : BitVec 32) (nak : Bool) : Port :=
  let rest := q.replay.filter fun f => !seqCovered f.seq ack
  { q with replay := rest, resend := if nak then rest else q.resend.filter fun f => !seqCovered f.seq ack }

/-- A whole packet enters the receive buffer; one that finds no room there, which no partner that keeps to its credits sends,
is lost (R360; DESIGN CHOICE, log entry 123). -/
def Port.enter (q : Port) (p : Pkt) : Port :=
  let n := pktSlots p
  if q.roomFor (pktCls p) n then { q with inq := q.inq ++ [p], used := modAt q.used (pktCls p) (· + n) } else q

/-- One received slot: a packet is whole at its END (R356, R359) (DESIGN CHOICE, log entry 69). -/
def portSlot (q : Port) (tag : Nat) (b : Bytes) : Port :=
  if !bitOf tag 0 then q
  else
    let part := if bitOf tag 1 then b else if q.partSlots = [] then [] else q.partSlots ++ b
    if part = [] then q
    else if bitOf tag 2 then Port.enter { q with partSlots := [] } (parsePkt part)
    else { q with partSlots := part }

/-- A frame accepted: its credits, its link message and its slots (DESIGN CHOICE, log entry 69). -/
def portAccept (q : Port) (seq : BitVec 32) (d : Bytes) : Port :=
  let lm := fldBytes d 96 64
  let q0 := (List.range 32).foldl (fun y c => y.repay c (fld d (32 + 2 * c) 2)) q
  let q1 := { q0 with rxSeq := seq, nak := false
                      lmsgIn := if fld d 96 1 = 0 then q.lmsgIn else q.lmsgIn ++ [lm] }
  if portCarries q then
    (List.range 304).foldl (fun y i => portSlot y (fld d (160 + i) 1) (fldBytes d (512 + 32 * i) 32)) q1
  else q1

/-- A frame that arrives on a port: its checks, then what it gives (R357 to R359). NAK, and whether more than 32 came within
1 ms. -/
def portReceive (q : Port) (now : Nat) (d : Bytes) (ok : Bool) : Port × Bool :=
  let seq : BitVec 32 := BitVec.ofNat 32 (fld d 8 4)
  let good := ok && crc64 (d.take 10240) == BitVec.ofNat 64 (fld d 10240 8)
  let toNak := fun (x : Port) =>
    let l := now :: x.naks.filter fun t => decide (now < t + 1000)
    ({ x with nak := true, naks := l, nakTimes := now :: x.nakTimes.filter (fun t => decide (now < t + 60000000)) }, decide (32 < l.length))
  if portTrains q then
    (if good && fld d 96 1 ≠ 0 then { q with lmsgIn := q.lmsgIn ++ [fldBytes d 96 64] } else q, false)
  else if !good then toNak q
  else
    let q1 := portAck q (BitVec.ofNat 32 (fld d 12 4)) (bitOf (fld d 16 2) 0)
    if seq = q.rxSeq + 1 then (portAccept q1 seq d, false)
    else if q.nak || seqCovered seq q.rxSeq then (q1, false)
    else toNak q1

/-- Queues a link message on a port. -/
def State.sendLmsg (s : State) (port : Nat) (m : Bytes) : State :=
  s.onPort port fun q => { q with lmsgOut := q.lmsgOut ++ [padTo 64 m] }

/-- IDENT of this module. -/
def State.ident (s : State) : Bytes :=
  padTo 64 (toLE 2 1 ++ toLE 2 (match s.fab.modId with
    | some i => i + 0x8000
    | none => 0) ++ toLE 2 s.fab.ownGen ++ zeros 2 ++ padTo 16 s.fab.fabDigest)

/-- A port that goes to RETRAIN: training with its replay buffer kept, the partner's IDENT still to come (R364). -/
def Port.retrain (q : Port) : Port := { q with st := .retrain, attempts := 0, ident := false, cal := none }

/-- FRAME: the port receives one frame, whose codewords `bad` cannot be corrected, and sends one. -/
def frameStep (port : Nat) (data : Bytes) (bad : BitVec 16) (s : State) : State :=
  match s.fab.ports[port]? with
  | none => s
  | some q =>
    if !s.domOn 1 || q.st == .down || q.st == .fault then s
    else
      let r := portReceive q s.clk.nowUs data (bad == 0)
      let q1 := if r.2 then { r.1.retrain with naks := [] } else r.1
      let s1 := s.onPort port fun _ => portSend (wraps s (s.fab.modId.getD 0) port) q1
      if r.2 then (s1.fabEvent 0x0023 port (q.partner.getD 0)).sendLmsg port s.ident else s1
def execLinkFrame (port : Nat) (data : Bytes) (bad : BitVec 16) (s : State) : Host.Outcome State Fault Refusal :=
  .next (frameStep port data bad s)

/-! ### Link management messages -/

/-- The first received link message of a kind, and the port without it. -/
def State.takeLmsg (s : State) (port kind : Nat) : Option (Bytes × State) :=
  (s.fab.ports[port]?).bind fun q => (q.lmsgIn.find? fun m => fld m 0 1 == kind).map fun m =>
    (m, s.onPort port fun y => { y with lmsgIn := dropFirst (fun k => fld k 0 1 == kind) y.lmsgIn })

/-- A MAP entry. -/
def mapCell (e : Nat × Bool × Nat) : Bytes := toLE 2 (e.1 + if e.2.1 then 0x8000 else 0) ++ toLE 2 e.2.2
/-- MAP messages of up to 15 entries each. -/
def mapMsgs : Nat → List (Nat × Bool × Nat) → List Bytes
  | 0, _ => []
  | _, [] => []
  | n + 1, l => padTo 64 (toLE 1 2 ++ toLE 1 (l.take 15).length ++ zeros 2 ++ (l.take 15).flatMap mapCell) :: mapMsgs n (l.drop 15)

/-- Sends entries in MAP messages on every port (R417). -/
def State.announce (s : State) (l : List (Nat × Bool × Nat)) : State :=
  (List.range 6).foldl (fun st i => (mapMsgs l.length l).foldl (fun x m => x.sendLmsg i m) st) s

/-- Merges entries into the map; those that change it are sent on, and end the buffered lines of their module
(R400, R415, R417); a module newly marked dead ends what waits on it (12 R423, R464; 16 R583). -/
def State.mergeEntries (s : State) (l : List (Nat × Bool × Nat)) : State :=
  let r := l.foldl (fun (x : State × List (Nat × Bool × Nat)) e =>
    let old := mapEntry x.1.fab.fmap e.1
    let new := mergeEntry old e.2
    if new = old then x
    else
      let s1 := x.1.dropPeer e.1
      ({ s1 with fab := { s1.fab with fmap := mergeMap s1.fab.fmap e.1 e.2 } }, x.2 ++ [(e.1, new)])) (s, [])
  if r.2 = [] then r.1
  else (r.2.filter fun e => !e.2.1).foldl (fun st e => st.memberDead e.1) (r.1.announce r.2)

/-- Positions a partner's coordinate skips on a port (R417). -/
def skipped (d : Nat × Nat × Nat) (self partner port : Nat) : List Nat :=
  let ax := port / 2
  ((ringPath (extent d ax) (coord self ax) (coord partner ax) (port % 2 == 1)).dropLast).map fun v => withCoord self ax v

/-- Whether a partner may stand on a port: same other coordinates, one to three positions on (R364). -/
def partnerOk (d : Nat × Nat × Nat) (self partner port : Nat) : Bool :=
  let ax := port / 2
  let n := extent d ax
  let c := coord self ax
  inTorus d partner && withCoord partner ax c == self &&
    [1, 2, 3].any fun k => coord partner ax == (if port % 2 = 0 then (c + k) % n else (c + 3 * n - k) % n)

/-- A slot that is sent again on a link to another partner: a packet that begins in it takes its class for that link (R374). -/
def slotOnLink (wrap : Bool) (x : BitVec 8 × Bytes) : BitVec 8 × Bytes :=
  if wrap && bitOf x.1.toNat 1 then (x.1, modAt x.2 1 (· ||| 8)) else x
/-- Credits for the packet that begins in a slot, if one does, spent. -/
def Port.spendSlot (q : Port) (x : BitVec 8 × Bytes) : Port :=
  let p := parsePkt x.2
  if bitOf x.1.toNat 1 then q.spend (pktCls p) (ceilDiv (32 + payLen p.ty p.len) 32) else q

/-- A port that meets a new partner: the frames it has not acknowledged go first, numbered anew, their packets with their
class for the new link (R374, R411) (DESIGN CHOICE, log entry 69). -/
def portRenumber (wrap : Bool) (q : Port) : Port :=
  let l := q.replay.zipIdx.map fun x => { x.1 with seq := BitVec.ofNat 32 x.2, slots := x.1.slots.map (slotOnLink wrap) }
  (l.flatMap (·.slots)).foldl Port.spendSlot
    { q with replay := l, resend := l, txSeq := BitVec.ofNat 32 l.length, rxSeq := BitVec.allOnes 32, nak := false, partSlots := []
             credits := List.replicate 32 256, shared := 8192, lent := List.replicate 32 0, freed := List.replicate 32 0 }

/-- Both ports of a port's axis after one of them has changed its state or its partner: neither carries packets while one
of them hears this module's own ID (R365), and the - port of an axis of extent 2 never does (R353) (DEDUCED, log entry 71). -/
def State.remute (s : State) (port : Nat) : State :=
  let ax := port / 2
  let hears := fun k => (s.fab.ports[k]?).any fun q => q.ident && q.partner == s.fab.modId
  let own := hears (2 * ax) || hears (2 * ax + 1)
  let two := s.fab.dims.any fun d => extent d ax == 2
  let set := fun (st : State) (k : Nat) =>
    (st.onPort k fun q => { q with mute := own || (two && k % 2 == 1) }).purge (s.fab.modId.getD 0) k
  set (set s (2 * ax)) (2 * ax + 1)

/-- A port that has its partner's IDENT: one of the same module in the same life goes on where it was; any other is a new
partner, which has asked for no width yet (R364, R366, R411). -/
def Port.meets (q : Port) (wrap : Bool) (id gen : Nat) : Port :=
  let same := q.partner == some id && q.partnerGen == gen
  let z := if same || (q.partner.isNone && q.replay.isEmpty) then q else portRenumber wrap q
  { z with partner := some id, partnerGen := gen, ident := true, partnerW := if same then q.partnerW else 16 }

/-- IDENT (R364, R365): checked while the port trains (DESIGN CHOICE, log entry 69). -/
def identStep (port : Nat) (s : State) : State :=
  match s.takeLmsg port 1, s.fab.modId, s.fab.dims with
  | some (m, s1), some self, some d =>
    match s.fab.ports[port]? with
    | none => s1
    | some q =>
      if !portTrains q then s1
      else
        let id := fld m 2 2 % 0x8000
        if fld m 2 2 = self + 0x8000 then (s1.onPort port fun y => { y with partner := some id, ident := true }).remute port
        else if fld m 2 2 < 0x8000 || !partnerOk d self id port || fldBytes m 8 16 != padTo 16 s.fab.fabDigest then
          (((s1.onPort port fun y => { y with st := .fault, partner := none, ident := false }).purge self port).remute port).fabEvent 0x0022 port id
        else
          (s1.onPort port fun y => y.meets (linkWraps self port id) id (fld m 4 2)).remute port
  | some (_, s1), _, _ => s1
  | none, _, _ => s
def execIdentMsg (port : Nat) (s : State) : Host.Outcome State Fault Refusal := .next (identStep port s)

/-- Injects the packets that waited for the whole map, each on its route of now (R371, R418, R419); a request whose
destination is unreachable completes with MEMBER_LOST (R408). -/
def State.injectWaiting (s : State) : State :=
  (s.fab.tx.foldl (fun (st : State) p =>
    let r := st.send p
    if r.2 then r.1 else st.loseRemotes fun x => x.tag == p.tag && x.dest == p.dest && x.vc == p.vc)
    { s with fab := { s.fab with tx := [] } }).settle

/-- MAP (R415, R417, R419) (DEDUCED, log entry 70). -/
def mapStep (port : Nat) (s : State) : State :=
  match s.takeLmsg port 2 with
  | none => s
  | some (m, s1) =>
    let l := (List.range (min 15 (fld m 1 1))).map fun i =>
      (fld m (4 + 4 * i) 2 % 0x8000, decide (0x8000 ≤ fld m (4 + 4 * i) 2), fld m (6 + 4 * i) 2)
    let s2 := (s1.mergeEntries l).onPort port fun q => { q with mapGot := l.foldl (fun g e => insertAsc e.1 g) q.mapGot }
    if !s2.fab.mapWhole && ((s2.fab.ports[port]?).map (·.mapGot.length)).getD 0 = 32768 then
      State.injectWaiting { s2 with fab := { s2.fab with mapWhole := true } }
    else s2
def execMapMsg (port : Nat) (s : State) : Host.Outcome State Fault Refusal := .next (mapStep port s)

/-- Width this end asks for: one lane asleep, else the width it trained to (R366). -/
def State.ownWidth (s : State) (q : Port) : Nat := if s.pow.asleep then 1 else q.trained
/-- State of a link at a width. -/
def widthState (w : Nat) : LinkState := if w = 1 then .sleep else if w = 16 then .active else .degraded
/-- Sets a running port to the narrower of the two widths asked for; a link leaves SLEEP by training again (R366). -/
def State.setWidth (s : State) (port : Nat) : State :=
  match s.fab.ports[port]? with
  | none => s
  | some q =>
    let w := min (s.ownWidth q) q.partnerW
    if q.st == .sleep && w != 1 then
      (s.onPort port Port.retrain).sendLmsg port s.ident
    else if q.st == .active || q.st == .degraded then s.onPort port fun y => { y with width := w, st := widthState w, cal := none }
    else s

/-- Asks the partner of a port for one lane while this module sleeps (R366). -/
def State.askWidth (s : State) (port : Nat) : State :=
  if s.pow.asleep then s.sendLmsg port (toLE 1 3 ++ toLE 1 1) else s

/-- WIDTH (R366). -/
def widthStep (port : Nat) (s : State) : State :=
  match s.takeLmsg port 3 with
  | none => s
  | some (m, s1) =>
    if [16, 8, 4, 1].contains (fld m 1 1) then (s1.onPort port fun q => { q with partnerW := fld m 1 1 }).setWidth port else s1
def execWidthMsg (port : Nat) (s : State) : Host.Outcome State Fault Refusal := .next (widthStep port s)

/-- A setting of a lane moved by a step (DESIGN CHOICE, log entry 72). -/
def stepSetting (l : List (Nat × Int)) (lane setting : Nat) (up : Bool) : List (Nat × Int) :=
  let k := 16 * setting + lane
  let v := ((l.find? fun e => e.1 == k).map (·.2)).getD 0 + if up then 1 else -1
  tset l k (some v)

/-- TXEQ: the answer to a message of this end, or a step asked of this end's transmitter, which is applied and answered
(DESIGN CHOICE, log entry 72). -/
def txeqStep (port : Nat) (s : State) : State :=
  match s.takeLmsg port 4 with
  | none => s
  | some (m, s1) =>
    if ((s.fab.ports[port]?).map (·.txeqOut.contains m)).getD false then
      s1.onPort port fun q => { q with txeqOut := dropFirst (fun x => x == m) q.txeqOut }
    else if 16 ≤ fld m 1 1 || 5 < fld m 2 1 || !(fld m 3 1 == 1 || fld m 3 1 == 0xFF) then s1
    else (s1.onPort port fun q => { q with txSet := stepSetting q.txSet (fld m 1 1) (fld m 2 1) (fld m 3 1 == 1) }).sendLmsg port m
def execTxeqMsg (port : Nat) (s : State) : Host.Outcome State Fault Refusal := .next (txeqStep port s)

/-! ### Training (R362 to R366, R411, R413, R417) -/

/-- LINK_SIGNAL_DETECT: a DOWN port of an axis with more than one position trains (R353, R363). -/
def linkSignalDetectStep (port : Nat) (s : State) : State :=
  match s.fab.ports[port]?, s.fab.dims with
  | some q, some d =>
    if q.st == .down && s.domOn 1 && s.fab.sluices && decide (1 < extent d (port / 2)) then
      (s.onPort port fun y =>
        { y with st := .training, attempts := 0, ident := false, cal := none, mute := y.mute || (extent d (port / 2) == 2 && port % 2 == 1)
                 lmsgIn := [], lmsgOut := [] }).sendLmsg port s.ident
    else s
  | _, _ => s
def execLinkSignalDetect (port : Nat) (s : State) : Host.Outcome State Fault Refusal := .next (linkSignalDetectStep port s)

/-- The third failed attempt: DOWN, LINK_DOWN, and RING_BROKEN where three positions on are bypassed (R363, R413)
(DEDUCED, log entry 71). -/
def State.trainFails (s : State) (port : Nat) (q : Port) : State :=
  if q.attempts + 1 < 3 then
    (s.onPort port fun y => { y with attempts := y.attempts + 1, ident := false }).sendLmsg port s.ident
  else
    let s0 := (s.onPort port fun y => { y with st := .down, attempts := 0, width := 0, ident := false }).purge (s.fab.modId.getD 0) port
    let s1 := (s0.remute port).fabEvent 0x0020 port (q.partner.getD 0)
    match s.fab.modId, s.fab.dims with
    | some self, some d =>
      let ax := port / 2
      let n := extent d ax
      let dead := [1, 2, 3].all fun k =>
        let i := withCoord self ax (if port % 2 = 0 then (coord self ax + k) % n else (coord self ax + 3 * n - k) % n)
        i != self && !(mapEntry s.fab.fmap i).1
      if dead then s1.fabEvent 0x0025 port self else s1
    | _, _ => s1

/-- The whole map, for a neighbour: entries of every module ID (R419) (DEDUCED, log entry 70). -/
def State.wholeMap (s : State) : List (Nat × Bool × Nat) := (List.range 32768).map fun i => (i, mapEntry s.fab.fmap i)

/-- The widest lane set of which every lane trains: its lowest lane and its width (R363); of sets of one width the lowest
(DESIGN CHOICE, log entry 72). -/
def laneSet (lanes : BitVec 16) : Option (Nat × Nat) :=
  [(0, 16), (0, 8), (8, 8), (0, 4), (4, 4), (8, 4), (12, 4)].find? fun x => (List.range x.2).all fun i => lanes.getLsbD (x.1 + i)

/-- LINK_TRAINED: the lanes that train at both ends give the lane set; none, a failed attempt. The partner's IDENT must have
come since the training began (R364). -/
def linkTrainedStep (port : Nat) (lanes : BitVec 16) (s : State) : State :=
  match s.fab.ports[port]? with
  | none => s
  | some q =>
    if !portTrains q then s
    else match laneSet lanes with
    | none => s.trainFails port q
    | some (lane, n) => match (if q.ident then q.partner else none), s.fab.modId, s.fab.dims with
      | some p, some self, some d =>
        let s1 := s.onPort port fun y =>
          { y with trained := n, lane := lane, attempts := 0, txSet := [], rxSet := [], txeqOut := [], mapGot := [],
                   resend := y.replay, nak := false }
        let w := min (if s.pow.asleep then 1 else n) q.partnerW
        let s2 := (s1.onPort port fun y => { y with width := w, st := widthState w }).purge self port
        let s3 := s2.askWidth port
        let s3 := if n < 16 then s3.fabEvent 0x0021 port p else s3
        if p = self then s3
        else
          let dead := (skipped d self p port).map fun i => (i, false, (mapEntry s3.fab.fmap i).2)
          let s4 := s3.mergeEntries (dead ++ [(p, true, q.partnerGen)])
          (mapMsgs 2185 s4.wholeMap).foldl (fun st m => st.sendLmsg port m) s4
      | _, _, _ => s
def execLinkTrained (port : Nat) (lanes : BitVec 16) (s : State) : Host.Outcome State Fault Refusal := .next (linkTrainedStep port lanes s)

/-- LINK_SIGNAL_LOSS: a running link trains again with its replay buffer kept; TRAINING and FAULT go DOWN. -/
def linkSignalLossStep (port : Nat) (s : State) : State :=
  match s.fab.ports[port]? with
  | none => s
  | some q =>
    if q.st == .active || q.st == .degraded || q.st == .sleep then
      (s.onPort port fun y => { y.retrain with lmsgIn := [], lmsgOut := [] }).sendLmsg port s.ident
    else if q.st == .training || q.st == .fault then
      ((s.onPort port fun y => { y with st := .down, width := 0, ident := false }).purge (s.fab.modId.getD 0) port).remute port
    else s
def execLinkSignalLoss (port : Nat) (s : State) : Host.Outcome State Fault Refusal := .next (linkSignalLossStep port s)

/-- A step of a setting of a lane on this end's receive direction: of the partner's transmitter by TXEQ, or of this end's
receiver (R362) (DESIGN CHOICE, log entry 72). -/
def State.tryStep (s : State) (port lane setting : Nat) (up : Bool) : State :=
  if setting ≤ 5 then
    let m := padTo 64 (toLE 1 4 ++ toLE 1 lane ++ toLE 1 setting ++ toLE 1 (if up then 1 else 0xFF))
    (s.sendLmsg port m).onPort port fun y => { y with txeqOut := y.txeqOut ++ [m] }
  else s.onPort port fun y => { y with rxSet := stepSetting y.rxSet lane setting up }

/-- A trial of the next setting of a lane after setting `k`, with `base` the count at the present settings; after the last
setting the next lane (R362). -/
def State.nextTrial (s : State) (port : Nat) (c : LaneCal) (k base : Nat) : State :=
  if k < 5 || k + 1 < 6 + Config.rxSettings then
    (s.onPort port fun y => { y with cal := some { c with base := some base, setting := k + 1, up := true } }).tryStep port
      (c.lanes.headD 0) (k + 1) true
  else s.onPort port fun y =>
    { y with cal := match c.lanes.drop 1 with
        | [] => none
        | l => some { lanes := l, base := none, setting := 0, up := true } }

/-- A count of the calibration in progress: of a lane at its present settings, which begins its trials, or of a trial, which
is kept only where the count is lower; else it is stepped back, and after a step up the step down is tried (R362). -/
def State.calCount (s : State) (port : Nat) (c : LaneCal) (count : Nat) : State :=
  let lane := c.lanes.headD 0
  match c.base with
  | none => (s.onPort port fun y => { y with cal := some { c with base := some count, setting := 0, up := true } }).tryStep port lane 0 true
  | some b =>
    if count < b then s.nextTrial port c c.setting count
    else
      let s1 := s.tryStep port lane c.setting (!c.up)
      if c.up then (s1.onPort port fun y => { y with cal := some { c with up := false } }).tryStep port lane c.setting false
      else s1.nextTrial port c c.setting b

/-- OPTICAL_CALIBRATION: the end of one count of R362 on an ACTIVE or DEGRADED port, over its lanes in use in ascending order.
A calibration begins at most once every 10 min; a count while a step asked of the partner is not answered is none (R361)
(DESIGN CHOICE, log entry 72). -/
def opticalCalibrationStep (port count : Nat) (s : State) : State :=
  match s.fab.ports[port]? with
  | none => s
  | some q =>
    if !(q.st == .active || q.st == .degraded) || !q.txeqOut.isEmpty then s
    else match q.cal with
      | some c => s.calCount port c count
      | none =>
        if q.calUs.all fun u => decide (u + 600000000 ≤ s.clk.nowUs) then
          (s.onPort port fun y => { y with calUs := some s.clk.nowUs }).calCount port
            { lanes := (List.range q.width).map (q.lane + ·), base := none, setting := 0, up := true } count
        else s
def execOpticalCalibration (port count : Nat) (s : State) : Host.Outcome State Fault Refusal :=
  .next (opticalCalibrationStep port count s)

/-! ### Forwarding and delivery (R372 to R374, R403 to R407) -/

/-- Types with a meaning at an endpoint (11 R378, R379; 12; 16). -/
def knownType (ty : Nat) : Bool :=
  decide (1 ≤ ty ∧ ty ≤ 7) || decide (0x10 ≤ ty ∧ ty ≤ 0x15) || decide (0x20 ≤ ty ∧ ty ≤ 0x22) ||
    decide (0x28 ≤ ty ∧ ty ≤ 0x2F)

/-- A triple's state after held packets that now follow are delivered: the packets, the state (DEDUCED, log entry 73). -/
def flushHeld : Nat → Triple → List Pkt × Triple
  | 0, t => ([], t)
  | n + 1, t =>
    match t.held.find? fun p => p.eseq == t.expect with
    | some p =>
      let r := flushHeld n { t with expect := t.expect + 1, held := t.held.filter fun q => q.eseq != p.eseq }
      (p :: r.1, r.2)
    | none => ([], t)

/-- Puts a triple's state back. -/
def State.setTriple (s : State) (t : Triple) : State :=
  { s with fab := { s.fab with triples := (s.fab.triples.filter fun x => !(x.src == t.src && x.vc == t.vc)) ++ [t] } }
/-- Packets handed to the endpoint, without those of an undefined type (R380). -/
def State.toEndpoint (s : State) (l : List Pkt) : State :=
  (l.filter fun p => !knownType p.ty).foldl State.freeHeld
    { s with fab := { s.fab with rx := s.fab.rx ++ l.filter fun p => knownType p.ty } }

/-- Delivers a packet in the order of its triple; one that is held behind a gap, or discarded, occupies the port's slots no
more (DEDUCED, log entry 73). -/
def State.deliver (s : State) (p : Pkt) : State :=
  let begin_ := fun (held : List Pkt) =>
    let r := flushHeld 65 { src := p.src, vc := p.vc, expect := p.eseq + 1, held := held, broken := false }
    (s.setTriple r.2).toEndpoint (p :: r.1)
  match s.fab.triples.find? fun x => x.src == p.src && x.vc == p.vc with
  | none => begin_ []
  | some t =>
    if p.resync then begin_ (t.held.filter fun q => decide ((q.eseq - p.eseq).toNat < 2 ^ 15) && q.eseq != p.eseq)
    else if t.broken then s.freeHeld p
    else if p.eseq = t.expect then begin_ t.held
    else
      let ahead := (p.eseq - t.expect).toNat
      let s1 := s.freeHeld p
      if ahead ≤ 64 && t.held.all (fun q => q.eseq != p.eseq) then s1.setTriple { t with held := t.held ++ [{ p with held := none }] }
      else s1

/-- A packet whose coordinates equal its intermediate's goes over to phase 1 (R372). -/
def phaseTurn (self : Nat) (p : Pkt) : Pkt :=
  if !p.phase && p.inter == self then { p with phase := true, dclass := false } else p

/-- The hop of a packet that came in on `inPort`, TTL already counted (DEDUCED, log entry 71). -/
def State.hop (s : State) (self : Nat) (inPort : Nat) (p0 : Pkt) : Hop :=
  let p := phaseTurn self p0
  if p.ttl = 0 then .drop
  else if p.phase && p.dest == self then .deliver
  else match firstPort self p with
    | some k => s.toPort self k { p with dclass := p.dclass && k / 2 == inPort / 2 }
    | none => .drop

/-- PACKET_FORWARD: the oldest packet of a port that need not wait for a training link. Its slots are free once it has left
the port; those of a packet for this module, once the endpoint has taken it (12 R462) (DEDUCED, log entry 71). -/
def packetForwardStep (port : Nat) (s : State) : State :=
  match s.fab.ports[port]?, s.fab.modId with
  | some q, some self =>
    let hopOf := fun (p : Pkt) => s.hop self port { p with ttl := p.ttl - 1 }
    match q.inq.zipIdx.find? fun x => hopOf x.1 != .wait with
    | none => s
    | some (p, i) =>
      let s0 := s.onPort port fun y => { y with inq := y.inq.eraseIdx i }
      let s1 := s0.onPort port fun y => y.free (pktCls p) (pktSlots p)
      match hopOf p with
      | .deliver => s0.deliver { phaseTurn self { p with ttl := p.ttl - 1 } with held := some (port, pktCls p) }
      | .drop => s1
      | .wait => s
      | .down k => s1.fabEvent 0x0020 k p.dest
      | .out k p1 => s1.enqueue k p1
  | _, _ => s
def execPacketForward (port : Nat) (s : State) : Host.Outcome State Fault Refusal := .next (packetForwardStep port s)

/-! ### Module ID, sluices, routes (R349, R350, R409, R416, R418) -/

/-- Fixes the module ID from FABRIC_ORIGIN and the slot map, once stage 2 has loaded the fabric section and VALID is 1
(R349, R350). -/
def State.fixId (s : State) : State :=
  match s.fab.modId, s.fab.dims with
  | none, some d =>
    if s.pow.stage = 2 && s.pow.episode ≠ some true && s.fab.originValid then
      let e := s.fab.slotMap.getD s.fab.slotId (0, 0, 0)
      let o := s.fab.origin.toNat
      let i := mkId ((coord o 0 + e.1) % d.1) ((coord o 1 + e.2.1) % d.2.1) ((coord o 2 + e.2.2) % d.2.2)
      { s with fab := { s.fab with modId := some i } }
    else s
  | _, _ => s
/-- MODULE_ID_FIX. -/
def moduleIdFixStep (s : State) : State := s.fixId
def execModuleIdFix (s : State) : Host.Outcome State Fault Refusal := .next (moduleIdFixStep s)

/-- SLUICE_OPEN: own generation counts, and the module announces itself live (R409, R416, R419) (DEDUCED, log entry 93). -/
def sluiceOpenStep (s : State) : State :=
  match s.fab.modId with
  | none => s
  | some self =>
    if s.fab.sluices || !s.domOn 1 || s.pow.episode = some true || s.fab.dims.isNone || !s.fab.loopback then s
    else
      let g := (s.fab.ownGen + 1) % 65536
      let s1 : State := { s with fab := { s.fab with sluices := true, ownGen := g, mapWhole := false } }
      { s1 with fab := { s1.fab with fmap := tset s1.fab.fmap self (some (true, g)), routeMap := tset s1.fab.routeMap self (some (true, g)) } }
def execSluiceOpen (s : State) : Host.Outcome State Fault Refusal := .next (sluiceOpenStep s)

/-- SLUICE_CLOSE: where D1 is off or a reset of reach A is asserted (DEDUCED, log entry 93). -/
def sluiceCloseStep (s : State) : State :=
  if !s.domOn 1 || s.pow.episode = some true then { s with fab := { s.fab with sluices := false } } else s
def execSluiceClose (s : State) : Host.Outcome State Fault Refusal := .next (sluiceCloseStep s)

/-- ROUTE_RECOMPUTE: later packets use the map as it now stands; MAP_CHANGED at most once per 100 ms (R418). -/
def routeRecomputeStep (s : State) : State :=
  if s.fab.fmap = s.fab.routeMap then s
  else
    let diff := (s.fab.fmap.find? fun e => mapEntry s.fab.routeMap e.1 != e.2).map (·.1)
    let s1 : State := { s with fab := { s.fab with routeMap := s.fab.fmap } }
    if s.fab.mapEventUs.all fun u => decide (u + 100000 ≤ s.clk.nowUs) then
      let s2 := s1.fabEvent 0x0024 0xFFFFFFFF (diff.getD 0)
      { s2 with fab := { s2.fab with mapEventUs := some s.clk.nowUs } }
    else s1
def execRouteRecompute (s : State) : Host.Outcome State Fault Refusal := .next (routeRecomputeStep s)

end Sys2Proof.Machine
end

