-- ==== Sys2Proof/Machine/Kernel.lean ====
section
/-! DEFINITION. Dispatch and the control slot (07 R233 to R246, R658), and the end of a kernel (07 R259, R260). -/

namespace Sys2Proof.Machine

/-! ### Dispatch -/

/-- Where an issue path goes after the bundle at `pc` when no jump is taken: the next bundle, or the first bundle of an
active loop whose END it is and that repeats (07 R238). -/
def afterBundle (pc : Nat) : List LoopFrame → Nat × List LoopFrame
  | [] => (pc + 1, [])
  | l :: r =>
    if pc = l.last then
      (if 1 < l.left then (l.first, { l with left := l.left - 1 } :: r) else afterBundle pc r)
    else (pc + 1, l :: r)

/-- A path that goes on behind its bundle. -/
def Path.advance (x : Path) : Path :=
  let n := afterBundle x.pc x.loops
  { x with pc := n.1, loops := n.2 }

/-- The path's running kernel and next bundle, when it may dispatch: active, not ended, the control slot of the bundle
before in effect (07 R658). -/
def State.dispatchable (s : State) (t p : Nat) : Option (Kernel × Path) :=
  match s.path? t p, s.kernelOn t with
  | some x, some k => if s.issues t && x.active && !x.ended && x.ctl.isNone then some (k, x) else none
  | _, _ => none

/-- Whether the slots of a bundle that are not NOP have room in their queues of 16 (07 R233). -/
def Path.room (x : Path) (b : Bundle) : Bool :=
  (b.mat == 0 || decide (x.mq.length < 16)) && (b.vec == 0 || decide (x.vq.length < 16)) &&
    (b.mov == 0 || decide (x.xq.length < 16))

/-- Whether every slot of a bundle may be dispatched (07 R237, R238) (DEDUCED, log entry 48). -/
def Path.bundleOk (x : Path) (k : Kernel) (b : Bundle) : Bool :=
  ctlOk b.ctl k.tiles.length x.prog.length x.pc (x.loops.map (·.last)) && matOk b.mat && vecOk b.vec &&
    movOk b.mov k.tiles.length

/-- Control register `i`; C0 reads as zero (07 R658). -/
def Path.c (x : Path) (i : Nat) : BitVec 32 := if i = 0 then 0 else x.creg.getD i 0
/-- Control register written; writes to C0 are ignored (07 R658). -/
def Path.setC (x : Path) (i : Nat) (v : BitVec 32) : Path :=
  if i = 0 then x else { x with creg := modAt x.creg i fun _ => v }

/-- The slots of a bundle entering their queues together, with C[AREG] as it stands now (07 R233, R658). -/
def Path.enter (x : Path) (b : Bundle) : Path :=
  { x with
      mq := if b.mat = 0 then x.mq
            else x.mq ++ [{ word := b.mat, areg := x.c (matAreg b.mat), bundle := x.pc, seq := x.mSeq }]
      vq := if b.vec = 0 then x.vq
            else x.vq ++ [{ word := b.vec, areg := x.c (vecAreg b.vec), bundle := x.pc, seq := x.vSeq }]
      xq := if b.mov = 0 then x.xq
            else x.xq ++ [{ word := b.mov, areg := x.c (movAreg b.mov), bundle := x.pc, seq := x.xSeq }]
      mSeq := if b.mat = 0 then x.mSeq else x.mSeq + 1
      vSeq := if b.vec = 0 then x.vSeq else x.vSeq + 1
      xSeq := if b.mov = 0 then x.xSeq else x.xSeq + 1 }

/-- The control slot of a bundle taken up: a NOP or a WAIT that has subtracted is done, BNZ and LOOP decide where the
path goes, the others go on (DESIGN CHOICE, log entry 1). -/
def Path.takeCtl (x : Path) (b : Bundle) : Path :=
  let op := wf b.ctl 5 0
  let it : QItem := { word := b.ctl, areg := x.c (ctlAreg b.ctl), bundle := x.pc, seq := 0 }
  if op = 0 || op = 2 then { x.advance with waited := false }
  else if op = 3 || op = 4 then { x with ctl := some it, waited := false }
  else { x.advance with ctl := some it, waited := false }

/-- BUNDLE_DISPATCH (07 R233, R237). -/
def bundleDispatchStep (t p : Nat) (s : State) : State :=
  match s.dispatchable t p with
  | none => s
  | some (k, x) =>
    match x.prog[x.pc]? with
    | none => s.kfault t p kfBadBundle x.pc
    | some b =>
      if !x.bundleOk k b then s.kfault t p kfBadBundle x.pc
      else if !x.room b || (wf b.ctl 5 0 == 2 && !x.waited) then s
      else s.onPath t p fun y => (y.enter b).takeCtl b

def execBundleDispatch (t p : Nat) (s : State) : Host.Outcome State Fault Refusal := .next (bundleDispatchStep t p s)

/-- NOP: nothing (07 R237). -/
def execNop (s : State) : Host.Outcome State Fault Refusal := .next s

/-- WAIT: once the bundle may dispatch and the counter has reached N, N is subtracted; the bundle then dispatches
(07 R244, R245) (DEDUCED, log entry 48). -/
def waitStep (t p : Nat) (s : State) : State :=
  match s.dispatchable t p with
  | none => s
  | some (k, x) =>
    match x.prog[x.pc]? with
    | none => s
    | some b =>
      if !x.bundleOk k b || wf b.ctl 5 0 != 2 || x.waited then s
      else
        match s.tiles[t]? with
        | none => s
        | some y =>
          let tk := wf b.ctl 13 6
          let n := wf b.ctl 29 14
          if y.tokOwner.getD tk 16 ≠ p then s.kfault t p kfTokenOwner x.pc
          else if !x.room b || decide (y.tokAt tk < n) then s
          else (s.onTile t fun z => { z with tok := sset 0 z.tok tk (z.tokAt tk - n) }).onPath t p
                 fun z => { z with waited := true }

def execWaitTok (t p : Nat) (s : State) : Host.Outcome State Fault Refusal := .next (waitStep t p s)

/-! ### Control instructions -/

/-- Applies `f` to the path's control instruction when its opcode is `op`. -/
def State.ctlRow (s : State) (t p op : Nat) (f : Kernel → Path → QItem → State → State) : State :=
  match s.path? t p, s.kernelOn t with
  | some x, some k =>
    match x.ctl with
    | none => s
    | some it =>
      if s.issues t && x.active && wf it.word 5 0 == op then f k x it (s.onPath t p fun y => { y with ctl := none }) else s
  | _, _ => s

/-- SIGNAL: with UNITS = 0 adds 1 now, else when the named units have completed what was dispatched (07 R243). -/
def signalStep (t p : Nat) (s : State) : State :=
  s.ctlRow t p 0x01 fun _ x it s1 =>
    let u := wf it.word 8 6
    let tk := wf it.word 16 9
    let lt := wf it.word 19 17
    if u = 0 then s1.sendToken t p lt tk it.bundle
    else s1.onPath t p fun y =>
      { y with sigs := y.sigs ++ [{ token := tk, ttile := lt, mUpTo := if bitOf u 0 then x.mSeq else 0,
                                    vUpTo := if bitOf u 1 then x.vSeq else 0, xUpTo := if bitOf u 2 then x.xSeq else 0,
                                    bundle := it.bundle }] }

def execSignalTok (t p : Nat) (s : State) : Host.Outcome State Fault Refusal := .next (signalStep t p s)

/-- Whether every matrix, vector and move instruction that a signal covers has completed (07 R243). -/
def signalReady (x : Path) (c : Core) (kid : Nat) (g : Signal) : Bool :=
  (x.mq.all fun q => decide (g.mUpTo ≤ q.seq)) && (c.runs.all fun r => r.kid != kid || decide (g.mUpTo ≤ r.seq)) &&
  (x.vq.all fun q => decide (g.vUpTo ≤ q.seq)) &&
  (x.xq.all fun q => decide (g.xUpTo ≤ q.seq)) && (x.moves.all fun m => decide (g.xUpTo ≤ m.seq))

/-- TOKEN_COUNT_ADD: the first waiting addition whose instructions have completed takes effect (07 R243). -/
def tokenCountAddStep (t p : Nat) (s : State) : State :=
  match s.path? t p, s.core? t p, s.kernelOn t with
  | some x, some c, some k =>
    match x.sigs.find? (signalReady x c k.kid) with
    | none => s
    | some g =>
      (s.onPath t p fun y => { y with sigs := dropFirst (signalReady x c k.kid) y.sigs }).sendToken t p g.ttile g.token g.bundle
  | _, _, _ => s

def execTokenCountAdd (t p : Nat) (s : State) : Host.Outcome State Fault Refusal := .next (tokenCountAddStep t p s)

/-- REMOTE_SIGNAL: the oldest signal on its way to another tile takes effect (07 R246). -/
def remoteSignalStep (s : State) : State :=
  match s.work.remoteSig with
  | [] => s
  | g :: r => ({ s with work := { s.work with remoteSig := r } }).tokenAdd g.dst g.token g.kid g.src g.pair g.bundle

def execRemoteSignal (s : State) : Host.Outcome State Fault Refusal := .next (remoteSignalStep s)

/-- LOOP: a count of 0 skips the body; else the body runs that many times (07 R238, R658). -/
def loopStep (t p : Nat) (s : State) : State :=
  s.ctlRow t p 0x03 fun _ x it s1 =>
    let n := if wf it.word 9 6 = 0 then wf it.word 25 10 else it.areg.toNat
    let e := wf it.word 36 26
    if n = 0 then
      let a := afterBundle e x.loops
      s1.onPath t p fun y => { y with pc := a.1, loops := a.2 }
    else s1.onPath t p fun y => { y with pc := x.pc + 1, loops := { first := x.pc + 1, last := e, left := n } :: y.loops }

def execLoop (t p : Nat) (s : State) : Host.Outcome State Fault Refusal := .next (loopStep t p s)

/-- Whether bundle `j` lies in the body of a LOOP of the program that is not active (07 R238). -/
def inIdleBody (prog : List Bundle) (loops : List LoopFrame) (j : Nat) : Bool :=
  (List.range prog.length).any fun i =>
    match prog[i]? with
    | none => false
    | some b =>
      wf b.ctl 5 0 == 3 && decide (i < j) && decide (j ≤ wf b.ctl 36 26) &&
        !loops.any fun l => l.first == i + 1 && l.last == wf b.ctl 36 26

/-- Loops that stay active after a jump to `j`: a loop whose body does not hold `j` ends, with every loop inside it. -/
def keepLoops (loops : List LoopFrame) (j : Nat) : List LoopFrame :=
  loops.foldr (fun l acc =>
    if acc.2 && decide (l.first ≤ j) && decide (j ≤ l.last) then (l :: acc.1, true) else (acc.1, false)) (([] : List LoopFrame), true)
  |>.1

/-- BNZ: jumps when the register is nonzero (07 R238). -/
def bnzStep (t p : Nat) (s : State) : State :=
  s.ctlRow t p 0x04 fun _ x it s1 =>
    if it.areg = 0 then s1.onPath t p Path.advance
    else
      let j := wf it.word 20 10
      let ls := keepLoops x.loops j
      if inIdleBody x.prog ls j then s1.kfault t p kfBadBundle it.bundle
      else s1.onPath t p fun y => { y with pc := j, loops := ls }

def execBnz (t p : Nat) (s : State) : Host.Outcome State Fault Refusal := .next (bnzStep t p s)

/-- SETC: C[CD] becomes IMM (07 control slot). -/
def setcStep (t p : Nat) (s : State) : State :=
  s.ctlRow t p 0x05 fun _ _ it s1 =>
    s1.onPath t p fun y => y.setC (wf it.word 9 6) (BitVec.ofNat 32 (wf it.word 41 10))

def execSetc (t p : Nat) (s : State) : Host.Outcome State Fault Refusal := .next (setcStep t p s)

/-- ADDC: C[CD] becomes C[CS] + IMM, modulo 2^32 (07 control slot). -/
def addcStep (t p : Nat) (s : State) : State :=
  s.ctlRow t p 0x06 fun _ x it s1 =>
    s1.onPath t p fun y => y.setC (wf it.word 9 6) (x.c (wf it.word 13 10) + BitVec.ofNat 32 (wf it.word 45 14))

def execAddc (t p : Nat) (s : State) : Host.Outcome State Fault Refusal := .next (addcStep t p s)

/-- LDC: C[CD] from the cistern (07 R658, R249, R330). -/
def ldcStep (t p : Nat) (s : State) : State :=
  s.ctlRow t p 0x07 fun _ _ it s1 =>
    let o := it.eff (wf it.word 39 14)
    if !inMem o 4 4 cisBytes then s1.kfault t p kfCisternRange it.bundle
    else if s1.sramBad (cisAddr t o) 4 then s1.kfault t p kfEcc it.bundle
    else s1.onPath t p fun y => y.setC (wf it.word 9 6) (BitVec.ofNat 32 (s1.numAt (cisAddr t o) 4))

def execLdc (t p : Nat) (s : State) : Host.Outcome State Fault Refusal := .next (ldcStep t p s)

/-- STC: C[CS] to the cistern (07 R658, R249; 10 R330). -/
def stcStep (t p : Nat) (s : State) : State :=
  s.ctlRow t p 0x08 fun _ x it s1 =>
    let o := it.eff (wf it.word 39 14)
    if !inMem o 4 4 cisBytes then s1.kfault t p kfCisternRange it.bundle
    else if s1.partBad (cisAddr t o) 4 then s1.kfault t p kfEcc it.bundle
    else (s1.store 1 (cisAddr t o) (toLE 4 (x.c (wf it.word 9 6)).toNat)).1

def execStc (t p : Nat) (s : State) : Host.Outcome State Fault Refusal := .next (stcStep t p s)

/-- END: the pair's program ends (07 R259). -/
def endStep (t p : Nat) (s : State) : State :=
  s.ctlRow t p 0x3F fun _ _ _ s1 => s1.onPath t p fun y => { y with ended := true }

def execEndProg (t p : Nat) (s : State) : Host.Outcome State Fault Refusal := .next (endStep t p s)

/-! ### The end of a kernel -/

/-- KERNEL_END: on a fault, or when every path has dispatched END and every write is acknowledged (07 R259). -/
def kernelEndStep (kid : Nat) (s : State) : State :=
  match s.kernel? kid with
  | none => s
  | some k => if k.faults != [] || s.kernelDone k then (s.stopKernel k).settle else s

def execKernelEnd (kid : Nat) (s : State) : Host.Outcome State Fault Refusal := .next (kernelEndStep kid s)

/-- Whether a path of a kernel cannot go on by itself: held by a WAIT, held by a full queue behind an instruction that
waits for a slot (05 R176), or finished (07 R260). -/
def pathStalled (s : State) (t p : Nat) (x : Path) (c : Core) : Bool :=
  let mWait := match x.mq.head? with
    | none => true
    | some q => (wf q.word 5 0 == 1 || decide (4 ≤ wf q.word 5 0 ∧ wf q.word 5 0 ≤ 0x0B)) &&
                c.given.getD (wf q.word 9 6) false
  let vWait := match x.vq.head? with
    | none => true
    | some q => decide (0x40 ≤ wf q.word 7 0 ∧ wf q.word 7 0 ≤ 0x42) && !c.given.getD (wf q.word 16 13) false
  let idle := mWait && vWait && x.xq.isEmpty && x.moves.isEmpty && c.runs.isEmpty && x.ctl.isNone &&
    !x.sigs.any (fun g => (s.kernelOn t).any fun k => signalReady x c k.kid g)
  let held := x.ended ||
    match x.prog[x.pc]? with
    | none => false
    | some b =>
      (wf b.ctl 5 0 == 2 && !x.waited &&
        decide (((s.tiles[t]?).map fun y => y.tokAt (wf b.ctl 13 6)).getD 0 < wf b.ctl 29 14) &&
        decide (((s.tiles[t]?).map fun y => y.tokOwner.getD (wf b.ctl 13 6) 16).getD 16 = p)) ||
      !x.room b
  idle && held

/-- Whether a kernel stalls (07 R260). -/
def State.kernelStalled (s : State) (k : Kernel) : Bool :=
  (s.work.remoteSig.all fun x => x.kid != k.kid) && !s.kernelDone k &&
  k.tiles.all fun t =>
    (s.tiles[t]?).any fun x =>
      (x.xu.all fun r => r.kid != k.kid) && (x.spw.all fun r => r.kid != k.kid) &&
      (List.range 16).all fun p =>
        match x.paths[p]?, x.cores[p]? with
        | some y, some c => !y.active || pathStalled s t p y c
        | _, _ => true

/-- DEADLOCK: a stall has lasted t_stall (07 R260). -/
def deadlockStep (kid : Nat) (s : State) : State :=
  match s.kernel? kid with
  | none => s
  | some k =>
    if s.kernelStalled k then
      (s.stopKernel { k with faults := k.faults ++ [{ code := kfDeadlock, ltile := 0, pair := 0, bundle := 0, status := 0 }] }).settle
    else s

def execDeadlock (kid : Nat) (s : State) : Host.Outcome State Fault Refusal := .next (deadlockStep kid s)

/-- RUN_LIMIT: the kernel's run limit has expired: RUN_LIMIT_MS of run time have passed (07 R259, argument block). -/
def runLimitStep (kid : Nat) (s : State) : State :=
  match s.kernel? kid with
  | none => s
  | some k =>
    if k.startUs + 1000 * k.runLimitMs ≤ s.clk.nowUs then
      (s.stopKernel { k with faults := k.faults ++ [{ code := kfRunLimit, ltile := 0, pair := 0, bundle := 0, status := 0 }] }).settle
    else s

def execRunLimit (kid : Nat) (s : State) : Host.Outcome State Fault Refusal := .next (runLimitStep kid s)

end Sys2Proof.Machine
end

