-- ==== Sys2Proof/Machine/Media.lean ====
section
/-! DEFINITION. The media engine (13): STREAM_OPEN, STREAM_FEED, STREAM_CLOSE and STREAM_PRIORITY, and the start and
completion of a picture in a pipe. -/

namespace Sys2Proof.Machine

/-! ### STREAM_OPEN (R481) -/

/-- Check 1: the ranges of the block's fields that both directions use, its reserved fields, and the fields of the
direction (DEDUCED, log entry 89). -/
def openRanges (b : Bytes) : Bool :=
  let enc := fld b 0 1 == 1
  let codec := fld b 1 1
  let depth := fld b 3 1
  let dim := fun (v : Nat) => decide (64 ≤ v ∧ v ≤ 8192)
  let common := decide (fld b 0 1 < 2) && decide (1 ≤ codec ∧ codec ≤ 3) && decide (fld b 2 1 < 4) && (depth == 8 || depth == 10) &&
    dim (fld b 4 2) && dim (fld b 6 2) && decide (2 ≤ fld b 8 2 ∧ fld b 8 2 ≤ 1024) && zeroAt b 10 2 && fld b 12 4 % 512 == 0 &&
    fld b 16 8 % 4096 == 0 && fld b 24 8 % 4096 == 0 && fld b 32 8 % 64 == 0 && decide (4 ≤ fld b 40 1 ∧ fld b 40 1 ≤ 12) &&
    zeroAt b 41 7 && zeroAt b 68 4 && zeroAt b 75 1 && zeroAt b 103 25
  let w := fld b 76 2
  let h := fld b 78 2
  let qMax := if codec = 3 then 255 else 51
  let low := fld b 72 1 == 1
  let encode := codec != 1 && decide (fld b 72 1 < 2) &&
    (if codec = 3 then fld b 73 1 == 0 else (fld b 73 1 == 1 && depth == 8) || fld b 73 1 == 2) && (levelOf codec (fld b 74 1)).isSome &&
    dim w && dim h && w % 8 == 0 && h % 8 == 0 && decide (w ≤ fld b 4 2) && decide (h ≤ fld b 6 2) && decide (1 ≤ fld b 80 4) &&
    decide (1 ≤ fld b 84 4) && decide (64000 ≤ fld b 88 4) && decide (fld b 88 4 * fld b 84 4 ≤ fld b 92 4 * fld b 80 4) &&
    (low || decide (1 ≤ fld b 96 2)) && (!low || decide (2 ≤ fld b 98 2 ∧ fld b 98 2 ≤ 1024)) && decide (fld b 100 1 ≤ qMax) &&
    decide (fld b 101 1 ≤ fld b 100 1) && decide (fld b 100 1 ≤ fld b 102 1) && decide (fld b 102 1 ≤ qMax) && fld b 48 8 % 64 == 0 &&
    fld b 56 8 % 64 == 0
  common && (if enc then encode else zeroAt b 48 16 && zeroAt b 72 31)

/-- Ranges of memory that a stream's block names: buffers, record ring, bitstream ring. -/
def openAreas (b : Bytes) : List (Nat × Nat) :=
  (List.range (fld b 8 2)).map (fun i => (fld b 16 8 + i * fld b 24 8, bufferBytes (fld b 4 2) (fld b 6 2) (fld b 12 4))) ++
    [(fld b 32 8, 64 * 2 ^ fld b 40 1)] ++ if fld b 0 1 = 1 then [(fld b 48 8, fld b 56 8)] else []

/-- Whether the buffers of a block lie in HBM. -/
def openHbm (b : Bytes) : Bool :=
  decide (fld b 16 8 + (fld b 8 2 - 1) * fld b 24 8 + bufferBytes (fld b 4 2) (fld b 6 2) (fld b 12 4) ≤ hbmEnd)

/-- Streams that hold a context of a direction; a pipeline that runs or stops holds 256 decode contexts, which those that it
opens use (R472, 14). -/
def State.contexts (s : State) (enc : Bool) : Nat :=
  (s.media.streams.filter fun x => x.encode == enc && x.st != .held && x.feeds.isNone).length +
    if enc then 0 else 256 * (s.media.pipelines.filter fun p => p.st == .running || p.st == .stopping).length
/-- Whether class 3 of a direction would keep within 75 % with a rate added (R505). -/
def State.class3Ok (s : State) (enc : Bool) (but rate : Nat) : Bool :=
  let l := s.media.streams.filter fun x => x.encode == enc && x.cls == 3 && x.handle != but && x.st != .held
  decide ((l.map fun x => x.f 64 4).sum + rate ≤ if enc then 4500000 else 18000000)

/-- Check 4: minimum sizes, overlaps, and the level's limits. -/
def openConsistent (b : Bytes) : Bool :=
  let areas := openAreas b
  let lim := (levelOf (fld b 1 1) (fld b 74 1)).getD (0, 0)
  decide (fld b 4 2 * sampleBytes (fld b 3 1) ≤ fld b 12 4) && decide (bufferBytes (fld b 4 2) (fld b 6 2) (fld b 12 4) ≤ fld b 24 8) &&
    (areas.zipIdx.all fun x => areas.zipIdx.all fun y => x.2 == y.2 || !overlaps x.1.1 x.1.2 y.1.1 y.1.2) &&
    (fld b 0 1 == 0 || (decide (auMax b ≤ fld b 56 8) && decide (fld b 88 4 ≤ lim.2) && decide (fld b 76 2 * fld b 78 2 ≤ lim.1)))

/-- A stream as it opens. -/
def Stream.fresh (h tenant : Nat) (b : Bytes) : Stream :=
  { handle := h, tenant := tenant, cfg := b, encode := fld b 0 1 == 1, cls := fld b 2 1, st := .opened,
    marks := List.replicate (fld b 8 2) Marks.clear, unread := [], chunks := [], picked := 0, held := [], sync := .seek, start := 0,
    skipped := 0, store := [], queue := [], outq := [], records := 0, order := 0, fill := fld b 92 4 / 2, qpPrev := fld b 100 1,
    bPrev := 0, bitsPrev := 0, keyRows := [], interRows := [], first := true, sinceKey := 0, refBuf := none, bsOff := 0, units := [],
    rollout := 0, feeds := none, frames := [], shown := [], ending := false }

/-- NUM_BUFFERS of all streams together (R479). -/
def State.buffersUsed (s : State) : Nat := (s.media.streams.map fun x => x.f 8 2).sum

/-- STREAM_OPEN. A frame buffer that is not HBM lies outside what the partition gives it (R481; DEDUCED, log entry 89). -/
def streamOpenStep (att ring : Nat) (s : State) : State :=
  s.startCmd 0x0401 (.block 128) att ring fun c s =>
    let b := c.par
    let enc := fld b 0 1 == 1
    if !openRanges b then (s, .st stBadParam)
    else if s.blocked 8 0 0 then (s, .st stBusy)
    else if !openHbm b || !(openAreas b).all (fun r => (s.tenant? c.tenant).any fun t => inPart t false true r.1 r.2) then (s, .st stDenied)
    else if (if enc then 64 else 512) ≤ s.contexts enc || 1024 < s.buffersUsed + fld b 8 2 ||
        (fld b 2 1 == 3 && !s.class3Ok enc 0x10000 (fld b 64 4)) || !s.domOn 3 then (s, .st stNoResource)
    else if !openConsistent b then (s, .st stBadParam)
    else
      let h := lowestFree (s.media.streams.map (·.handle))
      ({ s with media := { s.media with streams := s.media.streams ++ [Stream.fresh h c.tenant b] } },
        .done stOK h (if enc then auMax b else 0) (minStride b))
def execStreamOpen (att ring : Nat) (s : State) : Host.Outcome State Fault Refusal := .next (streamOpenStep att ring s)

/-- Stream of a command's tenant; those that the pipeline opens for itself have no handle that a command can name (DESIGN
CHOICE, log entry 27). -/
def State.ownStream (s : State) (c : Cmd) (h : Nat) : Option Stream :=
  (s.stream? h).filter fun x => x.tenant == c.tenant && x.feeds.isNone

/-! ### STREAM_FEED (R482, R483) -/

/-- Access units that a record has reported and that are not released: the records that wait carry the newest ones. -/
def Stream.reported (x : Stream) : List (Nat × Nat) := x.units.take (x.units.length - (x.outq.filter fun r => fld r 32 4 != 0).length)
/-- Whether a feed entry is valid for a stream. -/
def Stream.entryOk (x : Stream) (e : Bytes) : Bool :=
  let buf := fld e 2 2
  let mark := x.marks[buf]?
  zeroAt e 24 8 && (if fld e 0 1 = 2 then decide (fld e 1 1 < 2) else fld e 1 1 == 0) &&
    match fld e 0 1 with
    | 1 => !x.encode && decide (1 ≤ fld e 4 4)
    | 2 => x.encode && mark.any Marks.free && x.rollout == 0
    | 3 => !x.encode && mark.any (·.output)
    | 4 => x.encode && x.reported.any fun u => u.2 == fld e 8 8
    | 5 => true
    | _ => false
/-- Buffers that the entries of a feed name. -/
def feedBufs (l : List Bytes) : List Nat := (l.filter fun e => fld e 0 1 == 2 || fld e 0 1 == 3).map fun e => fld e 2 2

/-- Makes a SOURCE entry's picture queued (R483). -/
def Stream.source (x : Stream) (buf : Nat) (tag : BitVec 64) (key : Bool) (order now : Nat) : Stream :=
  let q : Queued := { uid := none, order := order, tag := tag, buf := buf, key := key, feedUs := now, last := false }
  { x.mark buf (fun m => { m with source := true }) with queue := x.queue ++ [q] }

/-- A feed entry takes effect. -/
def Stream.feed (x : Stream) (uid order now : Nat) (e : Bytes) : Stream :=
  let buf := fld e 2 2
  let tag := BitVec.ofNat 64 (fld e 16 8)
  let chunk : Chunk := { uid := uid, last := fld e 0 1 == 5, tag := tag, addr := fld e 8 8, len := fld e 4 4, order := order, feedUs := now }
  let last : Queued := { uid := some uid, order := order, tag := 0, buf := 0, key := false, feedUs := now, last := true }
  match fld e 0 1 with
  | 1 => { x with unread := x.unread ++ [chunk] }
  | 2 => x.source buf tag (bitOf (fld e 1 1) 0) order now
  | 3 => x.mark buf fun m => { m with output := false }
  | 4 => { x with units := (x.units.dropWhile fun u => u.2 != fld e 8 8).drop 1 }
  | _ => if x.encode then { x with queue := x.queue ++ [last] } else { x with unread := x.unread ++ [chunk] }

/-- Whether a stream's state accepts the entries of a feed. -/
def Stream.accepts (x : Stream) (l : List Bytes) : Bool :=
  match x.st with
  | .opened => true
  | .draining => l.all fun e => fld e 0 1 == 3 || fld e 0 1 == 4
  | .closing => false
  | .held => l.all fun e => fld e 0 1 == 3

/-- Reads the chunks of every decode stream that can go on: a stream without a free buffer waits (R480). -/
def State.readAll (s : State) : State :=
  s.media.streams.foldl (fun st x => if x.encode || x.freeBuf.isNone then st else st.readChunks x.handle x.unread.length) s

/-- STREAM_FEED. -/
def streamFeedStep (att ring : Nat) (s : State) : State :=
  State.mediaOn <| State.readAll <| s.startCmd 0x0403 .inline att ring fun c s =>
    let n := c.f 32 4
    let at_ := c.f 24 8
    match s.ownStream c (c.f 16 2) with
    | none => (s, .st stBadParam)
    | some x =>
      if !c.z 18 6 || !c.z 36 28 || !decide (1 ≤ n ∧ n ≤ 4096) then (s, .st stBadParam)
      else if x.st == .closing || s.blocked 8 0 0 then (s, .st stBusy)
      else if !(s.tenant? c.tenant).any fun t => inPart t false false at_ (32 * n) then (s, .st stDenied)
      else
        let rd := s.cmdRead at_ (32 * n)
        if rd.2 ≠ stOK then (rd.1, .st rd.2)
        else
          let l := (List.range n).map fun i => rd.1.bytesAt (at_ + 32 * i) 32
          if !x.accepts l then (rd.1, .st stBusy)
          else if !l.all x.entryOk || !decide ((feedBufs l).Nodup) then (rd.1, .st stBadParam)
          else if !(l.filter fun e => fld e 0 1 == 1).all (fun e => (s.tenant? c.tenant).any fun t => inPart t false false (fld e 8 8) (fld e 4 4)) then
            (rd.1, .st stDenied)
          else
            let o := rd.1.media.feedOrder
            let s1 : State := { rd.1 with media := { rd.1.media with feedOrder := o + n } }
            let s2 := s1.onStream x.handle fun y => l.zipIdx.foldl (fun z e => z.feed c.uid (o + e.2) s.clk.nowUs e.1) y
            (s2, if l.any fun e => fld e 0 1 == 1 || fld e 0 1 == 5 then .wait (.streamFeed x.handle) else .st stOK)
def execStreamFeed (att ring : Nat) (s : State) : Host.Outcome State Fault Refusal := .next (streamFeedStep att ring s)

/-! ### STREAM_CLOSE, STREAM_PRIORITY (R485 to R487, R505, R507) -/

/-- STREAM_CLOSE. -/
def streamCloseStep (att ring : Nat) (s : State) : State :=
  State.mediaOn <| s.startCmd 0x0402 .inline att ring fun c s =>
    let mode := c.f 18 1
    match s.ownStream c (c.f 16 2) with
    | none => (s, .st stBadParam)
    | some x =>
      if !c.z 19 45 || 1 < mode then (s, .st stBadParam)
      else match x.st, mode with
        | .opened, 0 =>
          let last : Queued := { uid := none, order := 0, tag := 0, buf := 0, key := false, feedUs := s.clk.nowUs, last := true }
          (s.onStream x.handle fun y => { y with st := .draining, queue := if y.encode then y.queue ++ [last] else y.queue },
            .wait (.streamClose x.handle 0))
        | .opened, _ => (s.stopStream x.handle, .wait (.streamClose x.handle 1))
        | .draining, 1 => (s.stopStream x.handle, .wait (.streamClose x.handle 1))
        | _, _ => (s, .st stBusy)
def execStreamClose (att ring : Nat) (s : State) : Host.Outcome State Fault Refusal := .next (streamCloseStep att ring s)

/-- STREAM_PRIORITY. -/
def streamPriorityStep (att ring : Nat) (s : State) : State :=
  s.startCmd 0x0404 .inline att ring fun c s =>
    match s.ownStream c (c.f 16 2) with
    | none => (s, .st stBadParam)
    | some x =>
      if !c.z 19 45 || 3 < c.f 18 1 then (s, .st stBadParam)
      else if x.st != .opened then (s, .st stBusy)
      else if c.f 18 1 = 3 && !s.class3Ok x.encode x.handle (x.f 64 4) then (s, .st stNoResource)
      else (s.onStream x.handle fun y => { y with cls := c.f 18 1 }, .st stOK)
def execStreamPriority (att ring : Nat) (s : State) : Host.Outcome State Fault Refusal :=
  .next (streamPriorityStep att ring s)

/-! ### Pictures (R473, R480, R484, R504) -/

/-- A picture that can start: its stream's class, its feed order, the stream, the buffer it writes, and what the pipe
runs. -/
structure Ready where
  cls : Nat
  order : Nat
  handle : Nat
  buf : Nat
  run : PipeRun
  deriving DecidableEq, Repr

/-- The next ready picture of a stream. -/
def State.readyOf (s : State) (x : Stream) : Option Ready :=
  if s.inPipe x.handle || x.st == .held || x.outq != [] || !s.slotOwn x then none
  else if x.encode then
    match x.queue, x.freeBuf, x.place with
    | q :: _, some b, some _ =>
      if q.last then none
      else some { cls := x.cls, order := q.order, handle := x.handle, buf := b,
                  run := { handle := x.handle, pic := q, buf := some b, got := none } }
    | _, _, _ => none
  else
    match x.next, x.freeBuf with
    | some p, some b =>
      if !x.decodes p then none
      else
      let c := x.chunkOf p
      let q : Queued := { uid := none, order := c.order, tag := c.tag, buf := b, key := false, feedUs := c.feedUs, last := false }
      some { cls := x.cls, order := c.order, handle := x.handle, buf := b,
             run := { handle := x.handle, pic := q, buf := some b, got := some p } }
    | _, _ => none

/-- The ready picture that a pipe takes: highest class, then earliest feed. -/
def State.bestReady (s : State) (enc : Bool) : Option Ready :=
  ((s.media.streams.filter fun x => x.encode == enc).filterMap s.readyOf).foldl (fun acc r =>
    match acc with
    | some a => if a.cls < r.cls || (a.cls == r.cls && r.order < a.order) then some r else some a
    | none => some r) none

/-- A stream whose next picture a pipe takes into a buffer; a decode stream that discarded begins at it (R490). -/
def Stream.take (x : Stream) (buf : Nat) : Stream :=
  let y := x.mark buf fun m => { m with work := true, pic := x.picked }
  if x.encode then { y with queue := x.queue.drop 1 }
  else { y with picked := x.picked + 1, start := x.from_, sync := .run }

/-- PICTURE_START: the lowest free pipe takes the next ready picture. -/
def pictureStartStep (encode : Bool) (s : State) : State :=
  let s1 := s.readAll.mediaOn
  let pipes := if encode then s1.media.encPipes else s1.media.decPipes
  match (List.range (if encode then 4 else 16)).find? (fun i => pipes.all fun p => p.1 != i), s1.bestReady encode with
  | some i, some r =>
    let s2 := s1.onStream r.handle fun x => x.take r.buf
    if encode then { s2 with media := { s2.media with encPipes := s2.media.encPipes ++ [(i, r.run)] } }
    else { s2 with media := { s2.media with decPipes := s2.media.decPipes ++ [(i, r.run)] } }
  | _, _ => s1
def execPictureStart (encode : Bool) (s : State) : Host.Outcome State Fault Refusal := .next (pictureStartStep encode s)

/-- Whether every buffer with REF of a stream can be read (R508). -/
def State.refsGood (s : State) (x : Stream) : State × Bool :=
  if x.feeds.isSome then (s, true)
  else x.marks.zipIdx.foldl (fun (a : State × Bool) m =>
    if m.1.ref then let r := a.1.load 8 (x.bufAt m.2) x.bufBytes; (r.1, a.2 && r.2.isSome) else a) (s, true)

/-- A picture's planes and motion data go to its buffer: memory, or a buffer of a stream that the pipeline opened (R477, R478). -/
def State.writePicture (s : State) (x : Stream) (i w h depth chroma : Nat) (planes motion : Bytes) : State :=
  let b := pictureBytes w h depth chroma planes
  if x.feeds.isSome then
    s.onStream x.handle fun y => { y with frames := modAt (y.frames ++ List.replicate (i + 1 - y.frames.length) (8, [])) i fun _ => (depth, b) }
  else s.writePlanes x i w h depth b motion

/-- Status of a picture that a pipe has taken: UNCORRECTABLE where data of it could not be read, CORRUPT_SAMPLE where it
breaks its standard or depends on a picture that was discarded (R491, R508). -/
def Stream.decodeStatus (x : Stream) (refs : Bool) (p : Config.Picture) : Nat :=
  if !refs || x.lost p then stUncorrectable
  else if p.broken || p.refs.any fun k => decide (k < x.start) then stCorrupt
  else stOK

/-- A decoded picture: its data, and the records of the pictures it outputs; one with another status than OK gives a record
and no output, its marks clear, and the stream discards up to the next random access point (R489, R491, R508). -/
def State.decoded (s : State) (r : PipeRun) (buf : Nat) (p : Config.Picture) : State :=
  match s.stream? r.handle with
  | none => s
  | some x =>
    let g := if p.refs.isEmpty then (s, true) else s.refsGood x
    let now := s.clk.nowUs
    let num := ((x.marks[buf]?).map (·.pic)).getD 0
    let status := x.decodeStatus g.2 p
    if status ≠ stOK then
      g.1.onStream r.handle fun y =>
        { (y.mark buf fun _ => Marks.clear).bareRecord status 0 0xFFFF r.pic.tag (now - r.pic.feedUs) with sync := .seek }
    else
      let d := p.header
      let s1 := g.1.writePicture x buf d.width d.height d.depth d.chroma p.planes p.motion
      s1.onStream r.handle fun y =>
        let y0 := { y.mark buf (fun m => { m with work := false, ref := true }) with
                    held := y.held ++ [(num, r.pic.tag, p.ptype, d.width, d.height, r.pic.feedUs)] }
        let y1 := p.outputs.foldl (fun z o => z.output now o) y0
        { y1 with store := p.keep, held := y1.held.filter fun e => p.keep.contains e.1 }.remark

/-- A coded picture: its access unit, its reconstruction and record (R494 to R503). -/
def State.coded (s : State) (r : PipeRun) (buf : Nat) : State :=
  match s.stream? r.handle with
  | none => s
  | some x =>
    let now := s.clk.nowUs
    let rd := s.load 8 (x.bufAt r.pic.buf) x.bufBytes
    let low := x.f 72 1 == 1
    let key := x.first || r.pic.key || (!low && x.sinceKey + 1 == x.f 96 2)
    let rf := match x.refBuf with
      | some b => if key then (rd.1, some []) else rd.1.load 8 (x.bufAt b) x.bufBytes
      | none => (rd.1, some [])
    let lat := now - r.pic.feedUs
    match rd.2, rf.2, x.place with
    | some src, some ref, some off =>
      let p := x.sinceKey
      let run := x.codeRows src ref key p
      let bPic := x.bPic key
      let qp := x.qpPic
      let total := run.bits.sum
      let unit := x.accessUnit key p run
      let s1 := (rf.1.storeSoon 8 (x.f 48 8 + off) unit)
      let s2 := s1.writePicture x buf (x.f 76 2) (x.f 78 2) (x.f 3 1) 1 (Config.reconPlanes x.cfg run.qps run.blocks)
        (run.blocks.flatMap (·.motion))
      let excess := ((run.bits.zip (x.rowBudgets key)).map fun v => (v.1 : Int) - v.2).foldl max (-(2 ^ 31))
      s2.onStream r.handle fun y =>
        let n := y.records + y.outq.length + 1
        let y1 := (y.mark r.pic.buf fun m => { m with source := false }).placed off unit.length
        { y1 with
          marks := y1.marks.zipIdx.map fun m => if m.2 = buf then { m.1 with work := false, ref := true } else { m.1 with ref := false }
          refBuf := some buf, order := y.order + 1, first := false, sinceKey := if key then 0 else p + 1
          fill := clampInt (y.fill + total - weirBase x.cfg) 0 (x.f 92 4), qpPrev := qp, bPrev := bPic, bitsPrev := total
          keyRows := if key then run.bits else y.keyRows, interRows := if key then y.interRows else run.bits
          outq := y1.outq ++ [recordBytes stOK (if key then 0 else 2) (if x.refreshes key p then 2 else 0) r.pic.buf r.pic.tag (x.f 76 2) (x.f 78 2)
            y.order off unit.length bPic.toNat excess run.fallback qp.toNat n lat] }
    | _, _, _ =>
      rf.1.onStream r.handle fun y =>
        ((y.mark r.pic.buf fun m => { m with source := false }).mark buf fun m => { m with work := false }).bareRecord stUncorrectable 0
          r.pic.buf r.pic.tag lat

/-- PICTURE_COMPLETE. -/
def pictureCompleteStep (encode : Bool) (pipe : Nat) (s : State) : State :=
  match (if encode then s.media.encPipes else s.media.decPipes).find? fun p => p.1 == pipe with
  | none => s
  | some (_, r) =>
    let drop := fun (l : List (Nat × PipeRun)) => l.filter fun p => p.1 != pipe
    let s1 : State := if encode then { s with media := { s.media with encPipes := drop s.media.encPipes } }
      else { s with media := { s.media with decPipes := drop s.media.decPipes } }
    let s2 := match r.got, r.buf with
      | some p, some b => s1.decoded r b p
      | none, some b => s1.coded r b
      | _, none => s1
    s2.readAll.mediaOn
def execPictureComplete (encode : Bool) (pipe : Nat) (s : State) : Host.Outcome State Fault Refusal :=
  .next (pictureCompleteStep encode pipe s)

end Sys2Proof.Machine
end

