-- ==== Sys2Proof/Machine/Kv.lean ====
section
/-! DEFINITION. KV caches and rollouts (15): KV_CREATE, KV_APPEND, KV_RELEASE, ROLLOUT_STEP, and a rendered picture
handed to its encode stream. -/

namespace Sys2Proof.Machine

/-- Cache of a command's tenant. -/
def State.ownKv (s : State) (c : Cmd) (h : Nat) : Option Kv := (s.kv? h).filter fun k => k.tenant == c.tenant

/-- Header of a table area (R537). -/
def Kv.header (k : Kv) : Bytes :=
  toLE 4 0x4B564331 ++ toLE 2 k.layers ++ toLE 1 k.heads ++ toLE 1 k.group ++ toLE 2 k.dim ++ toLE 1 3 ++ toLE 1 0 ++
    toLE 2 k.maxSeqs ++ toLE 2 0 ++ toLE 8 k.table ++ toLE 8 k.pool ++ toLE 4 k.frames ++ zeros 12 ++ toLE 4 0 ++ zeros 4044

/-- KV_CREATE (R540). A table area or pool that is not HBM is outside what the partition gives it; one whose memory is off
gets NO_RESOURCE, and the command waits while it is being initialised (10 R338, R339; DEDUCED, log entry 74). -/
def kvCreateStep (att ring : Nat) (s : State) : State :=
  s.startCmd 0x0A01 .inline att ring fun c s =>
    let k : Kv :=
      { handle := lowestFree (s.media.kvs.map (·.handle)), tenant := c.tenant, layers := c.f 16 2, heads := c.f 18 1, group := c.f 19 1,
        dim := c.f 20 2, maxSeqs := c.f 24 2, table := c.f 32 8, pool := c.f 40 8, frames := c.f 48 4 }
    let inP := fun a n => (s.tenant? c.tenant).any fun t => inPart t false true a n
    let pool := k.frames * k.frameBytes
    let hbm := decide (k.table + k.tableBytes ≤ hbmEnd ∧ k.pool + pool ≤ hbmEnd)
    if !c.z 23 1 || !c.z 26 6 || !c.z 52 12 || !decide (1 ≤ k.layers ∧ k.layers ≤ 256) || !decide (1 ≤ k.heads ∧ k.heads ≤ 64) ||
        !decide (1 ≤ k.group ∧ k.group ≤ 16) || !([64, 128, 256].contains k.dim) || c.f 22 1 ≠ 3 ||
        !decide (1 ≤ k.maxSeqs ∧ k.maxSeqs ≤ 4096) || k.table % 4096 ≠ 0 || k.pool % 4096 ≠ 0 ||
        !decide (1 ≤ k.frames ∧ k.frames < 2 ^ 24) then (s, .st stBadParam)
    else if !inP k.table k.tableBytes || !inP k.pool pool || !hbm then (s, .st stDenied)
    else if 16 ≤ (s.media.kvs.filter fun x => x.tenant == c.tenant).length then (s, .st stNoResource)
    else if overlaps k.table k.tableBytes k.pool pool then (s, .st stBadParam)
    else if hbmAny s.groupOff k.table k.tableBytes then (s, .st stNoResource)
    else if hbmAny s.groupInit k.table k.tableBytes then (s, .st stWait)
    else
      let s1 := (s.zeroLanded k.table k.tableBytes).kvPut k.table k.header
      ({ s1 with media := { s1.media with kvs := s1.media.kvs ++ [k] } }, .done stOK k.handle k.frameBytes k.tableBytes)
def execKvCreate (att ring : Nat) (s : State) : Host.Outcome State Fault Refusal := .next (kvCreateStep att ring s)

/-- Lowest free sequence of a cache. -/
def State.kvFreeSeq (s : State) (k : Kv) : Option Nat := (List.range k.maxSeqs).find? fun q => s.kvState k q == 0

/-- Writes the positions of an append from the staging tensor `b` (KV_APPEND SRC). -/
def State.kvAppendData (s : State) (k : Kv) (q len n : Nat) (b : Bytes) : State :=
  (List.range (k.layers * k.heads)).foldl (fun st lh =>
    (List.range n).foldl (fun st1 t =>
      let row := fun kv => (b.drop (((lh * 2 + kv) * n + t) * k.dim * 2)).take (2 * k.dim)
      st1.kvWrite k q (len + t) (lh / k.heads) (lh % k.heads) (row 0) (row 1)) st) s

/-- KV_APPEND (R541): every check, those of unreadable and poisoned lines among them (10 R327, R328), comes before the first
write. -/
def kvAppendStep (att ring : Nat) (s : State) : State :=
  s.startCmd 0x0A02 .inline att ring fun c s =>
    let n := c.f 20 4
    let seq := c.f 18 2
    match s.ownKv c (c.f 16 2) with
    | none => (s, .st stBadParam)
    | some k =>
      let bytes := k.layers * k.heads * 2 * n * k.dim * 2
      if !c.z 32 32 || 1048576 < n || (seq ≠ 0xFFFF && k.maxSeqs ≤ seq) then (s, .st stBadParam)
      else if !(s.tenant? c.tenant).any fun t => inPart t false false (c.f 24 8) bytes then (s, .st stDenied)
      else
        let open_ := seq = 0xFFFF
        let tb := s.kvTables k (if open_ then List.range k.maxSeqs else [seq]) (if open_ then [] else [seq])
        let s := tb.1
        let q := if open_ then (s.kvFreeSeq k).getD 0 else seq
        let len := if open_ then 0 else s.kvLen k q
        let need := ceilDiv (len + n) 256 - if open_ then 0 else s.kvPages k q
        if tb.2 ≠ stOK then (s, .st tb.2)
        else if 1048576 < len + n then (s, .st stLimit)
        else if k.frames - s.kvUsed k < need || (open_ && (s.kvFreeSeq k).isNone) then (s, .st stNoResource)
        else if !open_ && s.kvState k q == 0 then (s, .st stBadParam)
        else if !open_ && s.kvState k q == 2 then (s, .st stBusy)
        else
          let rd := if n = 0 then (s, stOK) else s.cmdRead (c.f 24 8) bytes
          let wr := if n = 0 || len % 256 = 0 then (rd.1, true)
            else rd.1.partAll 5 (k.frameRanges (s.kvFrame k q (len / 256)) (len % 256) (min n (256 - len % 256)))
          if rd.2 ≠ stOK then (rd.1, .st rd.2)
          else if !wr.2 then (wr.1, .st stUncorrectable)
          else
            let s1 := (wr.1.kvSet (k.recAt q) 1 1).kvAlloc k q (len + n)
            let s2 := (s1.kvAppendData k q len n (s.bytesAt (c.f 24 8) bytes)).kvSet (k.recAt q + 4) 4 (len + n)
            (s2, .done stOK q (len + n) (s2.kvUsed k))
def execKvAppend (att ring : Nat) (s : State) : Host.Outcome State Fault Refusal := .next (kvAppendStep att ring s)

/-- KV_RELEASE (R542). A table area that cannot be read, or part of a poisoned line that a cut would zero, gives
UNCORRECTABLE and no effect (10 R327, R328) (DEDUCED, log entry 74). -/
def kvReleaseStep (att ring : Nat) (s : State) : State :=
  s.startCmd 0x0A03 .inline att ring fun c s =>
    let seq := c.f 18 2
    let mode := c.f 20 1
    let keep := c.f 24 4
    match s.ownKv c (c.f 16 2) with
    | none => (s, .st stBadParam)
    | some k =>
      let seqs := List.range k.maxSeqs
      let mine := if seq = 0xFFFF then seqs else [seq]
      let tb := s.kvTables k mine mine
      if !c.z 21 3 || !c.z 28 36 || 1 < mode || (seq ≠ 0xFFFF && k.maxSeqs ≤ seq) then (s, .st stBadParam)
      else if tb.2 ≠ stOK then (tb.1, .st tb.2)
      else
      let s := tb.1
      if seq = 0xFFFF then
        if mode ≠ 0 then (s, .st stBadParam)
        else if seqs.any fun q => s.kvState k q == 2 then (s, .st stBusy)
        else
          let s1 := (seqs.filter fun q => s.kvState k q != 0).foldl (fun st q => st.kvFree k q) s
          ({ s1 with media := { s1.media with kvs := s1.media.kvs.filter fun x => x.handle != k.handle } }, .st stOK)
      else if s.kvState k seq == 0 || (mode == 1 && decide (s.kvLen k seq < keep)) then (s, .st stBadParam)
      else if s.kvState k seq == 2 then (s, .st stBusy)
      else if mode = 0 then (s.kvFree k seq, .st stOK)
      else
        let cut := s.kvCutOk k seq keep
        if !cut.2 then (cut.1, .st stUncorrectable) else (cut.1.kvTruncate k seq keep, .st stOK)
def execKvRelease (att ring : Nat) (s : State) : Host.Outcome State Fault Refusal := .next (kvReleaseStep att ring s)

/-! ### Rollouts (R548 to R553) -/

/-- A rollout entry read from 32 bytes. -/
def rollEntry (s : State) (k : Kv) (b : Bytes) : RollEntry :=
  { seq := fld b 0 2, stream := fld b 2 2, tokens := fld b 4 4, pictures := fld b 8 2, tag := BitVec.ofNat 64 (fld b 16 8),
    len0 := s.kvLen k (fld b 0 2), queued := 0 }

/-- Check 1 of R548 for one entry. -/
def State.rollOk (s : State) (c : Cmd) (k : Kv) (j : Job) (b : Bytes) : Bool :=
  let e := rollEntry s k b
  let r := s.secAt (s.imgOf j) 1 64 0
  decide (e.seq < k.maxSeqs) && zeroAt b 10 6 && zeroAt b 24 8 && decide (1 ≤ e.tokens ∧ e.tokens ≤ 65536) && decide (e.pictures ≤ 64) &&
    s.kvState k e.seq != 0 &&
    (if e.stream = 0xFFFF then e.pictures == 0
     else (s.ownStream c e.stream).any fun x => x.encode && x.st == .opened && x.f 76 2 == s.numAt (r + 20) 2 && x.f 78 2 == s.numAt (r + 22) 2)

/-- Status of the checks of R548 (DEDUCED, log entry 87). -/
def State.rollStatus (s : State) (c : Cmd) (k : Kv) (j : Job) (l : List Bytes) : Nat :=
  let es := l.map (rollEntry s k)
  let strs : List Nat := (es.map (·.stream)).filter fun v => v != 0xFFFF
  if !l.all (s.rollOk c k j) || !decide ((es.map (·.seq)).Nodup) || !decide (strs.Nodup) then stBadParam
  else if es.any fun e => decide (1048576 < e.len0 + e.tokens) then stLimit
  else if k.frames - s.kvUsed k < (es.map fun e => s.kvNeed k e.seq (e.len0 + e.tokens)).sum then stNoResource
  else if es.any (fun e => s.kvState k e.seq == 2) || (s.rolloutOf j.handle).isSome then stBusy
  else stOK

/-- ROLLOUT_STEP: frames and locks for every entry; one step of the job then runs on them. -/
def rolloutStepStep (att ring : Nat) (s : State) : State :=
  s.startCmd 0x0A04 .inline att ring fun c s =>
    let n := c.f 20 4
    let at_ := c.f 24 8
    match s.ownKv c (c.f 18 2) with
    | none => (s, .st stBadParam)
    | some k =>
      if !c.z 32 32 || !decide (1 ≤ n ∧ n ≤ 256) then (s, .st stBadParam)
      else s.namedJob c (c.f 16 2) fun j =>
        if j.st == .stopping then (s, .st stBusy)
        else if j.st != .running || s.trains j then (s, .st stBadParam)
        else if !(s.tenant? c.tenant).any fun t => inPart t false false at_ (32 * n) then (s, .st stDenied)
        else
          let rd := s.cmdRead at_ (32 * n)
          if rd.2 ≠ stOK then (rd.1, .st rd.2)
          else
            let l := (List.range n).map fun i => rd.1.bytesAt (at_ + 32 * i) 32
            let qs := (l.map fun b => fld b 0 2).filter fun q => decide (q < k.maxSeqs)
            let tb := rd.1.kvTables k qs qs
            let st := tb.1.rollStatus c k j l
            if tb.2 ≠ stOK then (tb.1, .st tb.2)
            else if st ≠ stOK then (tb.1, .st st)
            else
              let es := l.map (rollEntry tb.1 k)
              let s1 := es.foldl (fun x e => (x.kvAlloc k e.seq (e.len0 + e.tokens)).kvSet (k.recAt e.seq) 1 2) tb.1
              let r : Rollout := { uid := c.uid, job := j.handle, cache := k.handle, entries := es }
              ({ s1 with media := { s1.media with rollouts := s1.media.rollouts ++ [r] } }, .wait (.rollout j.handle))
def execRolloutStep (att ring : Nat) (s : State) : Host.Outcome State Fault Refusal := .next (rolloutStepStep att ring s)

/-- Counts one more picture of entry `i` of a rollout as handed over (DEDUCED, log entry 87). -/
def State.rollQueued (s : State) (uid i : Nat) : State :=
  let f := fun (r : Rollout) => { r with entries := modAt r.entries i fun e => { e with queued := e.queued + 1 } }
  { s with media := { s.media with rollouts := modFirst (fun r => r.uid == uid) f s.media.rollouts } }

/-- ROLLOUT_PICTURE: the next picture of an entry, rendered into buffer c mod NUM_BUFFERS, becomes a SOURCE of its stream
(R552). Rendering waits while the buffer is not free; a stream that is no longer open takes no picture
(DEDUCED, log entry 87). -/
def rolloutPictureStep (uid i : Nat) (s : State) : State :=
  match s.media.rollouts.find? fun r => r.uid == uid with
  | none => s
  | some r =>
    match r.entries[i]? with
    | none => s
    | some e =>
      if e.pictures ≤ e.queued || !(s.job? r.job).any (fun j => j.openStep.isSome && j.live) then s
      else match s.stream? e.stream with
        | none => s.rollQueued uid i
        | some x =>
          let b := x.rollout % x.f 8 2
          if x.st != .opened then s.rollQueued uid i
          else if !(x.marks[b]?).any Marks.free then s
          else
            let o := s.media.feedOrder
            let s1 : State := { s with media := { s.media with feedOrder := o + 1 } }
            let tag := e.tag + BitVec.ofNat 64 e.queued
            (s1.onStream e.stream fun y => { y.source b tag false o s.clk.nowUs with rollout := y.rollout + 1 }).rollQueued uid i
def execRolloutPicture (uid i : Nat) (s : State) : Host.Outcome State Fault Refusal := .next (rolloutPictureStep uid i s)

end Sys2Proof.Machine
end

