-- ==== Sys2Proof/Machine/MemHealth.lean ====
section
/-! DEFINITION. What the memory groups and the reservoir do of themselves (10): PATROL_SCRUB_LINE, SRAM_SCRUB,
HEALTH_RECORD_REWRITE, MEMORY_GROUP_READY, STAGING_READY and RESERVOIR_WEAR_LEVELLING. -/

namespace Sys2Proof.Machine

/-! ### Scrubs (10 R330 to R332) -/

/-- Error state of a line once the scrub's finding is added: errors of two symbols are detected (R325); poison stays. -/
def findLine (old : Option LineErr) (f : LineFinding) : Option LineErr :=
  match old, f with
  | e, .same => e
  | some .poisoned, _ => some .poisoned
  | some .uncorrectable, _ => some .uncorrectable
  | none, .symbol i => some (.symbol i)
  | some (.symbol j), .symbol i => if i = j then some (.symbol j) else some .uncorrectable
  | _, .uncorrectable => some .uncorrectable

/-- PATROL_SCRUB_LINE: one line access of the pass of group `g`; at the end of a pass the on-die counts are added
(R326, R331, R332; 17 R614). -/
def patrolScrubLineStep (g : Nat) (fresh : LineFinding) (onDie : Nat) (s : State) : State :=
  match s.tiles[g]? with
  | none => s
  | some x =>
    if !s.domOn (12 + g) || !s.groupReady g then s
    else
      let line := (g * groupBytes + x.mg.scrubOff) / 64
      let s1 := s.setLineErr (tset s.mem.lineErr line (findLine (s.lineErrAt line) fresh))
      let s2 := (s1.touchLine 0 line).1
      s2.onMg g fun m =>
        if m.scrubOff + 64 < groupBytes then { m with scrubOff := m.scrubOff + 64 }
        else { m with scrubOff := 0, passes := m.passes + 1, onDie := m.onDie + onDie, passHours := m.nextHours }
def execPatrolScrubLine (g : Nat) (fresh : LineFinding) (onDie : Nat) (s : State) : Host.Outcome State Fault Refusal :=
  .next (patrolScrubLineStep g fresh onDie s)

/-- Tile whose basins, accumulators or cistern hold a 64-bit word (DESIGN CHOICE, log entry 62). -/
def tileOfWord (word : Nat) : Option Nat :=
  let a := word * 8
  if accAddr 0 0 0 0 ≤ a then
    let t := (a - accAddr 0 0 0 0) / (16 * 16 * 0x40000)
    if t < 8 then some t else none
  else match regionOf a with
    | .tile t o => if o < recOff then some t else none
    | _ => none

/-- SRAM_SCRUB: the scrub reads and corrects a word; a double-bit error stays (R330). -/
def sramScrubStep (word : Nat) (fresh : WordFinding) (s : State) : State :=
  match tileOfWord word with
  | none => s
  | some t =>
    if !s.tileOn t then s
    else
      let old := (s.mem.wordErr.find? fun e => e.1 == word).map (·.2)
      let bad := old == some .double || fresh == .double || (old == some .single && fresh == .single)
      s.setWordErr (tset s.mem.wordErr word (if bad then some .double else none))
def execSramScrub (word : Nat) (fresh : WordFinding) (s : State) : Host.Outcome State Fault Refusal :=
  .next (sramScrubStep word fresh s)

/-! ### Health records (10 R337, R348) -/

/-- Bytes 0x0008 to 0x0037 of a memory health record. -/
def State.groupCounts (s : State) (g : Nat) (m : MemGroup) : Bytes :=
  let poisoned := (s.mem.lineErr.filter fun e => groupOfLine e.1 == g && e.2 == .poisoned).length
  toLE 8 m.ceLines ++ toLE 8 m.ueEvents ++ toLE 8 m.onDie ++ toLE 4 poisoned ++ toLE 4 m.retired.length ++
    toLE 4 (sat32 m.passes) ++ toLE 4 (m.scrubOff / 0x200000) ++ toLE 1 m.st ++ zeros 7

/-- RETIRED_MAP of a list of frames. -/
def retiredMap (l : List Nat) : List (Nat × BitVec 8) :=
  l.foldl (fun m f => sset 0 m (f / 8) (sget 0 m (f / 8) ||| BitVec.ofNat 8 (2 ^ (f % 8)))) []

/-- The parts of a memory health record that are not its sequence number, by offset. -/
def State.groupRecord (s : State) (g : Nat) (m : MemGroup) : List (Nat × Bytes) :=
  [(0x08, s.groupCounts g m), (0x40, padTo 2048 (m.log.flatMap id))] ++ (retiredMap m.retired).map fun e => (0x4000 + e.1, [e.2])

/-- Reservoir STATE: 1 ready, 2 read-only, 3 failed (R345; 18 self-test bit 35). -/
def State.resState (s : State) : Nat := if bitOf s.pow.selftest.toNat 35 then 3 else if s.resv.sparePct = 0 then 2 else 1
/-- Step of a committed checkpoint slot, or 0. -/
def CkptSlot.step (c : CkptSlot) : Nat := if c.st = 2 then fld c.commit 16 8 else 0

/-- Bytes that the ageing ledger, the retirement bitmaps and the persistent event log have taken (10 reservoir regions)
(DESIGN CHOICE, log entry 99). -/
def State.logBytes (s : State) : Nat :=
  Config.logBytes (s.tel.persistent.length + s.tel.ageingCount.sum + (s.tiles.map fun x => x.mg.retired.length).sum)

/-- The parts of the reservoir health record that are not its sequence number; STAGING_USED is given to each reader (R348). -/
def State.resRecord (s : State) : List (Nat × Bytes) :=
  let r := s.resv
  [(0x08, toLE 1 s.resState ++ toLE 1 r.sparePct ++ zeros 6 ++ toLE 8 (r.hostBytes + s.logBytes) ++ toLE 8 (r.nandBytes + s.logBytes) ++ toLE 8 0 ++
     toLE 8 quarterBytes ++ toLE 1 r.slot0.st ++ toLE 1 r.slot1.st ++ zeros 6 ++ toLE 8 r.slot0.step ++ toLE 8 r.slot1.step ++
     toLE 8 r.refreshes ++ toLE 8 r.badPages)]

/-- Rewrites a record at `a` with sequence number `n`, kept again at offset `e` (R337). -/
def State.rewrite (s : State) (a e n : Nat) (l : List (Nat × Bytes)) : State :=
  ((l.foldl (fun st x => st.put (a + x.1) x.2) (s.put a (toLE 8 n))).put (a + e) (toLE 8 n))
/-- Whether a record's parts differ from what stands in it. -/
def State.stale (s : State) (a : Nat) (l : List (Nat × Bytes)) : Bool := l.any fun x => s.bytesAt (a + x.1) x.2.length != x.2
/-- Whether 100 ms have passed since the last rewrite. -/
def State.recDue (s : State) (last : Option Nat) : Bool := last.all fun u => decide (u + 100000 ≤ s.clk.nowUs)

/-- HEALTH_RECORD_REWRITE: record of memory group 0 to 7, or of the reservoir (8), when a field has changed and at most once
in 100 ms. -/
def healthRecordRewriteStep (which : Nat) (s : State) : State :=
  if which = 8 then
    let l := s.resRecord
    let used := [1, 2, 3, 4].map s.stagingUsed
    if !s.domOn 2 || !s.recDue s.resv.resUs || !(s.stale resRecAddr l || used != s.resv.resUsed) then s
    else
      let n := s.resv.resSeq + 1
      let s1 : State := { s with resv := { s.resv with resSeq := n, resUs := some s.clk.nowUs, resUsed := used } }
      s1.rewrite resRecAddr 0xFF8 n l
  else match s.tiles[which]? with
    | none => s
    | some x =>
      let a := tileWin which + recOff
      let l := s.groupRecord which x.mg
      if !s.domOn 2 || !s.recDue x.mg.recUs || !s.stale a l then s
      else
        let n := x.mg.seq + 1
        (s.onMg which fun m => { m with seq := n, recUs := some s.clk.nowUs }).rewrite a 0x38 n l
def execHealthRecordRewrite (which : Nat) (s : State) : Host.Outcome State Fault Refusal :=
  .next (healthRecordRewriteStep which s)

/-! ### Initialisation and the reservoir -/

/-- MEMORY_GROUP_READY: a group that initialises becomes ready, or degraded, and the writes that waited for it land (R338); when it is the last of a release
sequence, self-test begins (17 R607; 18 bring-up states). -/
def memoryGroupReadyStep (g : Nat) (s : State) : State :=
  match s.tiles[g]? with
  | none => s
  | some x =>
    if x.mg.st ≠ 1 || !s.domOn (12 + g) then s
    else
      let s1 := (s.onMg g fun m => { m with st := if m.degraded then 3 else 2 }).flushStores
      if s1.pow.bringUp = .boot && (List.range 8).all s1.groupReady then
        { s1 with pow := { s1.pow with bringUp := .selftest } }
      else s1
def execMemoryGroupReady (g : Nat) (s : State) : Host.Outcome State Fault Refusal := .next (memoryGroupReadyStep g s)

/-- STAGING_READY. -/
def stagingReadyStep (s : State) : State :=
  if s.domOn 2 then { s with resv := { s.resv with stagingReady := true } } else s
def execStagingReady (s : State) : Host.Outcome State Fault Refusal := .next (stagingReadyStep s)

/-- RESERVOIR_WEAR_LEVELLING: spare blocks that remain, bytes programmed and refreshes since the last of these rows; the
data and its addresses stand (R345). -/
def reservoirWearLevellingStep (sparePct nandBytes refreshes : Nat) (s : State) : State :=
  if !s.domOn 2 then s
  else
    let left := min s.resv.sparePct sparePct
    let warn := decide (left ≤ 10) && !s.resv.wearEvent
    let s1 : State := { s with resv := { s.resv with
        sparePct := left, nandBytes := s.resv.nandBytes + nandBytes, refreshes := s.resv.refreshes + refreshes
        wearEvent := s.resv.wearEvent || warn } }
    if warn then s1.event 0x0013 0xFF 0 0 0 0 else s1
def execReservoirWearLevelling (sparePct nandBytes refreshes : Nat) (s : State) : Host.Outcome State Fault Refusal :=
  .next (reservoirWearLevellingStep sparePct nandBytes refreshes s)

end Sys2Proof.Machine
end

