-- ==== Sys2Proof/Machine/Pipe.lean ====
section
/-! DEFINITION. The input pipeline (14): PIPE_CONFIGURE, PIPE_START, PIPE_STOP and PIPE_SEEK, the epoch order (R517),
the stages from fetch to assemble, batches and the sample log (R519 to R521, R531), retries and the status record. -/

namespace Sys2Proof.Machine

/-! ### Configuration (R512) -/

/-- Offset, bytes and maximum of a limit. -/
def limitW : Nat × Nat × Nat := (94, 2, 8192)
def limitH : Nat × Nat × Nat := (96, 2, 8192)
def limitFrames : Nat × Nat × Nat := (98, 2, 16384)
def limitBits : Nat × Nat × Nat := (104, 8, 4294967296)
def limitDecoded : Nat × Nat × Nat := (112, 8, 17179869184)
/-- A limit's value in a block; 0 sets the maximum. -/
def limitIn (b : Bytes) (l : Nat × Nat × Nat) : Nat := if fld b l.1 l.2.1 = 0 then l.2.2 else fld b l.1 l.2.1
/-- Clip bytes of a block, and the bytes of the tensor itself. -/
def tensorBytes (b : Bytes) : Nat := fld b 82 2 * fld b 86 2 * fld b 88 2 * 6
def clipBytes (b : Bytes) : Nat := ceilDiv (tensorBytes b) 4096 * 4096
/-- Decode frame size. -/
def frameSize (b : Bytes) : Nat := limitIn b limitW * limitIn b limitH * 3
/-- Areas of a block: batch buffers, work area, status record, log; the manifest. -/
def pipeAreas (b : Bytes) : List (Nat × Nat) :=
  [(fld b 32 8, (fld b 2 1 + 1) * fld b 40 8), (fld b 48 8, fld b 56 8), (fld b 64 8, 256), (fld b 72 8, 32 * 2 ^ fld b 80 1)]
def pipeManifest (b : Bytes) : Nat × Nat := (fld b 16 8, 32 * fld b 24 8)
/-- Whether the areas of a block lie in HBM. -/
def pipeHbm (b : Bytes) : Bool := (pipeAreas b).all fun r => decide (r.1 + r.2 ≤ hbmEnd)

/-- Ranges of the block. -/
def pipeCfgOk (b : Bytes) : Bool :=
  let le := fun (lo v hi : Nat) => decide (lo ≤ v ∧ v ≤ hi)
  let areas := pipeManifest b :: pipeAreas b
  le 1 (fld b 2 1) 8 && decide (fld b 3 1 < 2) && le 1 (fld b 4 4) 4096 && le 1 (fld b 8 4) 32768 && decide (fld b 12 4 < fld b 8 4) &&
    fld b 16 8 % 32 == 0 && le 1 (fld b 24 8) (2 ^ 40) && fld b 32 8 % 4096 == 0 && fld b 40 8 % 4096 == 0 && fld b 48 8 % 4096 == 0 &&
    fld b 64 8 % 64 == 0 && fld b 72 8 % 64 == 0 && le 4 (fld b 80 1) 16 && zeroAt b 81 1 && le 1 (fld b 82 2) 1024 && le 1 (fld b 84 2) 64 &&
    le 1 (fld b 86 2) 4096 && le 1 (fld b 88 2) 4096 && le 1 (fld b 90 2) 8192 && le (fld b 90 2) (fld b 92 2) 8192 &&
    [limitW, limitH, limitFrames, limitBits, limitDecoded].all (fun l => decide (limitIn b l ≤ l.2.2)) && zeroAt b 100 4 && zeroAt b 120 8 &&
    decide (65536 + fld b 4 4 * clipBytes b ≤ fld b 40 8) && decide (limitIn b limitBits + 256 * frameSize b ≤ fld b 56 8) &&
    areas.zipIdx.all fun x => areas.zipIdx.all fun y => x.2 == y.2 || !overlaps x.1.1 x.1.2 y.1.1 y.1.2

/-- Pipeline of a tenant. -/
def State.pipe? (s : State) (t : Nat) : Option Pipeline := s.media.pipelines.find? fun p => p.tenant == t
/-- State of a tenant's pipeline. -/
def State.pipeState (s : State) (t : Nat) : PipeState := ((s.pipe? t).map (·.st)).getD .unconfigured

/-- PIPE_CONFIGURE. An area that is not HBM lies outside what the partition gives it (DEDUCED, log entry 88). -/
def pipeConfigureStep (att ring : Nat) (s : State) : State :=
  s.startCmd 0x0501 (.block 128) att ring fun c s =>
    let b := c.par
    let inP := fun hub w (r : Nat × Nat) => (s.tenant? c.tenant).any fun t => inPart t hub w r.1 r.2
    if !pipeCfgOk b then (s, .st stBadParam)
    else if !inP true false (pipeManifest b) || !pipeHbm b || !(pipeAreas b).all (inP false true) then (s, .st stDenied)
    else if s.pipeState c.tenant == .running || s.pipeState c.tenant == .stopping then (s, .st stBusy)
    else
      let p : Pipeline :=
        { tenant := c.tenant, st := .stopped, cfg := b, seqNo := 0, readNo := 0, buffers := [], samples := [], assembled := 0,
          rejected := 0, retries := 0, waitUs := 0, starved := List.replicate 5 0, blocked := List.replicate 5 0,
          items := List.replicate 5 0, recSeq := 0, logSerial := 0 }
      let s1 : State := { s with media := { s.media with pipelines := (s.media.pipelines.filter fun x => x.tenant != c.tenant) ++ [p] } }
      ((List.range (p.f 2 1 + 1)).foldl (fun st i => st.storeSoon 7 (p.bufAt i) (toLE 1 0)) s1, .st stOK)
def execPipeConfigure (att ring : Nat) (s : State) : Host.Outcome State Fault Refusal := .next (pipeConfigureStep att ring s)

/-- PIPE_START (R525, R526): resumes after the last complete batch. -/
def pipeStartStep (att ring : Nat) (s : State) : State :=
  s.startCmd 0x0502 .inline att ring fun c s =>
    if !c.z 16 48 then (s, .st stBadParam)
    else match s.pipe? c.tenant with
      | none => (s, .st stBadParam)
      | some p =>
        if p.st == .unconfigured then (s, .st stBadParam)
        else if p.st != .stopped then (s, .st stBusy)
        else if !(s.job? (p.f 0 2)).any (fun j => j.tenant == c.tenant && (j.st == .starting || j.st == .running || j.st == .paused)) then
          (s, .st stBadParam)
        else if 512 < s.contexts false + 256 then (s, .st stNoResource)
        else
          let next := p.buffers.foldl (fun m b => max m (b.n + 1)) p.readNo
          (s.onPipe c.tenant fun x => { x with st := .running, seqNo := next }, .st stOK)
def execPipeStart (att ring : Nat) (s : State) : Host.Outcome State Fault Refusal := .next (pipeStartStep att ring s)

/-- PIPE_STOP: it replies when the pipeline is STOPPED (R526). -/
def pipeStopStep (att ring : Nat) (s : State) : State :=
  s.startCmd 0x0503 .inline att ring fun c s =>
    if !c.z 16 48 then (s, .st stBadParam)
    else match s.pipe? c.tenant with
      | none => (s, .st stBadParam)
      | some p =>
        if p.st == .unconfigured then (s, .st stBadParam)
        else if p.st != .running then (s, .st stBusy)
        else
          let s1 := s.pipeHalt p
          (s1, if s1.pipeState c.tenant == .stopping then .wait (.pipeStop c.tenant) else .st stOK)
def execPipeStop (att ring : Nat) (s : State) : Host.Outcome State Fault Refusal := .next (pipeStopStep att ring s)

/-- PIPE_SEEK (R527, R528). -/
def pipeSeekStep (att ring : Nat) (s : State) : State :=
  s.startCmd 0x0504 .inline att ring fun c s =>
    match s.pipe? c.tenant with
    | none => (s, .st stBadParam)
    | some p =>
      if p.st == .unconfigured || 2 ^ 24 ≤ c.f 16 4 || p.batches ≤ c.f 24 8 || 2 ^ 40 ≤ c.f 32 8 || !c.z 40 24 then (s, .st stBadParam)
      else if p.st != .stopped then (s, .st stBusy)
      else
        let r := s.seekPipe p (c.f 16 4) (c.f 24 8) (c.f 20 4) (c.f 32 8)
        (r.1, .done (if r.2.2 then stRngResync else stOK) (r.2.1 % 2 ^ 40) (c.f 32 8) (c.f 16 4 + c.f 20 4 * 2 ^ 32))
def execPipeSeek (att ring : Nat) (s : State) : Host.Outcome State Fault Refusal := .next (pipeSeekStep att ring s)

/-! ### Epoch order (R517, R518) -/

/-- h of R517: the smallest number from 1 on with 4^h at least `n`. -/
def permHalf (n : Nat) : Nat := ((List.range 32).find? fun i => decide (n ≤ 4 ^ (i + 1))).getD 31 + 1
/-- The four rounds on one value. -/
def permRounds (rk : Bytes) (h v : Nat) : Nat :=
  let r := (List.range 4).foldl (fun (x : Nat × Nat) i =>
    let f := (philox (fld rk (8 * i) 4) (fld rk (8 * i + 4) 4) x.2 i 0 0).1
    (x.2, x.1 ^^^ (f % 2 ^ h))) (v / 2 ^ h, v % 2 ^ h)
  r.1 * 2 ^ h + r.2
/-- Cycle walking, at most `k` turns: some value below `n` comes in fewer turns than there are values of `n` or more. -/
def permWalk (rk : Bytes) (h n : Nat) : Nat → Nat → Nat
  | 0, v => v
  | k + 1, v => let w := permRounds rk h v; if w < n then w else permWalk rk h n k w
/-- π_e(p) of a job seed over `n` samples. -/
def epochPerm (seed e n p : Nat) : Nat :=
  let h := permHalf n
  permWalk (shake256 (toLE 8 seed ++ toLE 4 e) 32) h n (4 ^ h - n + 1) p

/-- Seed of a pipeline's job. -/
def State.pipeSeed (s : State) (p : Pipeline) : Nat := ((s.job? (p.f 0 2)).map (·.seed.toNat)).getD 0
/-- Position that slot `j` of a batch holds (R518). -/
def Pipeline.slotPos (p : Pipeline) (batch j : Nat) : Nat := p.position batch + j

/-! ### Batches (R519 to R521, R531) -/

/-- Address of the clip of a slot, and of its slot entry. -/
def Pipeline.clipAt (p : Pipeline) (n j : Nat) : Nat := p.bufAt n + 65536 + j * clipBytes p.cfg
def Pipeline.entryAt (p : Pipeline) (n j : Nat) : Nat := p.bufAt n + 64 + 16 * j
/-- Slots of a batch that hold a sample. -/
def Pipeline.live (p : Pipeline) (batch : Nat) : Nat := min (p.f 4 4) (p.f 24 8 - p.position batch)

/-- Writes a slot: tensor, then entry. -/
def State.writeSlot (s : State) (p : Pipeline) (n j : Nat) (clip : Bytes) (sample weight status cause : Nat) (flip : Bool) : State :=
  let s1 := s.storeSoon 7 (p.clipAt n j) clip
  (s1.storeSoon 7 (p.entryAt n j) (toLE 8 sample ++ toLE 4 weight ++ toLE 1 status ++ toLE 1 cause ++ toLE 1 (if flip then 1 else 0) ++ toLE 1 0))

/-- The rejected slots of a batch, in slot order. -/
def Batch.rejects (b : Batch) : List (Nat × Nat × Nat × Nat) :=
  ((List.range 4096).filterMap fun j => b.written.find? fun w => w.1 == j).filter fun w => w.2.2.1 != stOK

/-- Writes the log entries of a batch (R531). -/
def State.writeLog (s : State) (p : Pipeline) (b : Batch) : State :=
  b.rejects.zipIdx.foldl (fun st w =>
    let serial := p.logSerial + 1 + w.2
    let e := toLE 8 w.1.2.1 ++ toLE 4 b.epoch ++ toLE 4 w.1.1 ++ toLE 8 b.batch ++ toLE 1 w.1.2.2.1 ++ toLE 1 w.1.2.2.2 ++ toLE 2 0 ++
      toLE 4 (serial % 2 ^ 32)
    (st.storeSoon 7 (p.f 72 8 + 32 * ((serial - 1) % 2 ^ p.f 80 1)) e)) s

/-- Completes the oldest batches that are filling while all of their slots are written: the log is in batch order
(R521, R531; DEDUCED, log entry 28). At most `n` of them. -/
def State.completeBatches (s : State) (t : Nat) : Nat → State
  | 0 => s
  | k + 1 =>
    match s.pipe? t with
    | none => s
    | some p =>
      match (p.buffers.filter fun b => b.st != 2).foldl (fun (m : Option Batch) b => match m with
          | some x => if b.n < x.n then some b else some x
          | none => some b) none with
      | none => s
      | some b =>
        if b.written.length < p.live b.batch then s
        else
          let weighted := (b.written.filter fun w => w.2.2.1 == stOK).length
          let s1 := s.storeSoon 7 (p.bufAt b.n + 28) (toLE 4 weighted)
          let s2 := ((s1.writeLog p b).storeSoon 7 (p.bufAt b.n) (toLE 1 2))
          let done := modFirst (fun x => x.n == b.n) (fun x => { x with st := 2 })
          (s2.onPipe t fun x => { x with buffers := done x.buffers, logSerial := x.logSerial + b.rejects.length }).completeBatches t k

/-- BATCH_FILL_START (R519, R520): the next batch begins once its buffer has been released; padding slots are written. -/
def batchFillStartStep (tenant : Nat) (s : State) : State :=
  match s.pipe? tenant with
  | none => s
  | some p =>
    let n := p.seqNo
    let e := p.epochOf n
    let k := p.f 2 1 + 1
    if p.st != .running || (p.buffers.any fun b => b.n % k == n % k) || 2 ^ 24 ≤ e.1 then s
    else
      let b : Batch := { n := n, epoch := e.1, batch := e.2, st := 1, issued := 0, written := [] }
      let head := toLE 1 1 ++ zeros 3 ++ toLE 4 e.1 ++ toLE 8 e.2 ++ toLE 8 n ++ toLE 4 (p.f 4 4)
      let s1 := (s.storeSoon 7 (p.bufAt n) head).storeSoon 7 (p.bufAt n + 32) (zeros 32)
      let pads := (List.range (p.f 4 4)).filter fun j => decide (p.live e.2 ≤ j)
      let s2 := pads.foldl (fun st j => st.writeSlot p n j (zeros (tensorBytes p.cfg)) (2 ^ 64 - 1) 0 stOK 0 false) s1
      (s2.onPipe tenant fun x => { x with buffers := x.buffers ++ [b], seqNo := n + 1 }).completeBatches tenant 9
def execBatchFillStart (tenant : Nat) (s : State) : Host.Outcome State Fault Refusal := .next (batchFillStartStep tenant s)

/-! ### Stages (R509 to R511) -/

/-- Samples that stand at a place. -/
def Pipeline.count (p : Pipeline) (k : Nat) : Nat := (p.samples.filter fun x => x.at_ == k).length
/-- Items in a stage and its queue. -/
def Pipeline.inStage (p : Pipeline) (k : Nat) : Nat :=
  match k with
  | 0 => p.count 0 + p.count 2
  | 1 => p.count 1
  | 2 => p.count 3
  | 3 => p.count 4
  | _ => p.count 5
/-- Queue depth of a stage. -/
def stageDepth (k : Nat) : Nat := [64, 32, 256, 32, 16].getD k 0
/-- The first sample at a place, none in a pipeline that does not run. -/
def Pipeline.front (p : Pipeline) (k : Nat) : Option Sample :=
  if p.st == .running then p.samples.find? fun x => x.at_ == k && !x.failed else none
/-- Changes a sample. -/
def State.onSample (s : State) (t : Nat) (x : Sample) (f : Sample → Sample) : State :=
  s.onPipe t fun p => { p with samples := modFirst (fun y => y.n == x.n && y.slot == x.slot) f p.samples }
/-- A stage passes an item on. -/
def State.passed (s : State) (t k : Nat) : State := s.onPipe t fun p => { p with items := modAt p.items k (· + 1) }

/-- KIND, CONTAINER and ATT that the manifest table defines, the header region in LENGTH, a local sample in the tenant's
memory (R513 check 1) (DEDUCED, log entry 88). -/
def State.manifestOk (s : State) (t : Nat) (e : Bytes) : Bool :=
  let len := fld e 16 8
  let local_ := fld e 0 1 == 1
  (local_ || fld e 0 1 == 2) && decide (fld e 1 1 < 4) && (if local_ then fld e 2 1 == 0 else decide (fld e 2 1 < 4)) && zeroAt e 3 1 &&
    decide (1 ≤ fld e 4 4 ∧ fld e 4 4 ≤ 16777216) && decide (fld e 24 8 + fld e 4 4 ≤ len) && decide (1 ≤ len) &&
    (!local_ || (s.tenant? t).any fun x => inPart x true false (fld e 8 8) len)

/-- What a fetch read gives: the bytes, a failure (R516), or that it must wait. -/
inductive Fetched where
  | data (b : Bytes)
  | fail
  | wait
  deriving DecidableEq, Repr

/-- Reads `n` bytes at offset `off` of a sample: local memory, or what the attachment returned. -/
def State.fetch (s : State) (e : Bytes) (off n : Nat) (pcie : Option Bytes) : State × Fetched :=
  let a := fld e 8 8 + off
  if fld e 0 1 = 1 then
    if hbmAny s.groupOff a n then (s, .fail)
    else if s.mustWait a n then (s, .wait)
    else match s.load 7 a n with
      | (s1, some b) => (s1, .data b)
      | (s1, none) => (s1, .fail)
  else match pcie with
    | some b => if b.length = n && s.attServes (fld e 2 1) then (s, .data b) else (s, .fail)
    | none => (s, .fail)

/-- A sample's read has failed: FETCH_STALLED at its first failure (R516, R532). -/
def State.fetchFailed (s : State) (t : Nat) (x : Sample) : State :=
  let s1 := s.onSample t x fun y => { y with failed := true, stalled := true }
  if x.stalled then s1 else s1.event 0x0040 0xFF 0 (x.sample % 2 ^ 32) x.epoch 0

/-- Reads the manifest entry and header region of a sample; the header of a sample that the manifest already rejects is
not read (R513). -/
def State.fetchHeader (s : State) (t : Nat) (p : Pipeline) (x : Sample) (pcie : Option Bytes) : State :=
  let m := p.f 16 8 + 32 * x.sample
  if s.mustWait m 32 then s
  else
    let r := s.load 7 m 32
    match (if hbmAny s.groupOff m 32 then none else r.2) with
    | none => r.1.fetchFailed t x
    | some e =>
      let next := fun (st : State) b => (st.onSample t x fun y => { y with at_ := 1, entry := e, bytes := b, failed := false }).passed t 0
      if !s.manifestOk t e || limitIn p.cfg limitBits < fld e 16 8 then next r.1 []
      else match r.1.fetch e (fld e 24 8) (fld e 4 4) pcie with
        | (s1, .data b) => next s1 b
        | (s1, .fail) => s1.fetchFailed t x
        | (_, .wait) => s

/-- Reads the body of an admitted sample (R514). -/
def State.fetchBody (s : State) (t : Nat) (x : Sample) (pcie : Option Bytes) : State :=
  match s.fetch x.entry 0 (fld x.entry 16 8) pcie with
  | (s1, .data b) => (s1.onSample t x fun y => { y with at_ := 3, bytes := b, failed := false }).passed t 0
  | (s1, .fail) => s1.fetchFailed t x
  | (_, .wait) => s

/-- The next sample request: the first slot not issued of the lowest batch (R510). -/
def State.nextRequest (s : State) (p : Pipeline) : Option Sample :=
  let l := p.buffers.filter fun b => b.st == 1 && decide (b.issued < p.live b.batch)
  (l.foldl (fun (m : Option Batch) b => match m with
    | some x => if b.n < x.n then some b else some x
    | none => some b) none).map fun b =>
      { n := b.n, slot := b.issued, epoch := b.epoch, sample := epochPerm (s.pipeSeed p) b.epoch (p.f 24 8) (p.slotPos b.batch b.issued),
        at_ := 0, entry := [], bytes := [], failed := false, stalled := false, frames := [], status := stOK, cause := 0, w := 0, h := 0,
        depth := 8, nframes := 0, codec := 0, store := 0, clip := [], flip := false }

/-- FETCH: the body of an admitted sample, or the header of a sample already issued, or of the next one. -/
def fetchSampleStep (tenant : Nat) (pcie : Option Bytes) (s : State) : State :=
  match s.pipe? tenant with
  | none => s
  | some p =>
    match p.front 2, p.front 0 with
    | some x, _ => s.fetchBody tenant x pcie
    | none, some x => if p.count 1 < 32 then s.fetchHeader tenant p x pcie else s
    | none, none =>
      match s.nextRequest p with
      | none => s
      | some x =>
        if p.st != .running || 64 ≤ p.inStage 0 || 32 ≤ p.count 1 then s
        else
          let issue := modFirst (fun b => b.n == x.n) (fun b => { b with issued := b.issued + 1 })
          let s1 := s.onPipe tenant fun y => { y with samples := y.samples ++ [x], buffers := issue y.buffers }
          s1.fetchHeader tenant p x pcie
def execFetchSample (tenant : Nat) (pcie : Option Bytes) (s : State) : Host.Outcome State Fault Refusal :=
  .next (fetchSampleStep tenant pcie s)

/-- FETCH_RETRY: a failed read is made again (R516). -/
def fetchRetryStep (tenant : Nat) (pcie : Option Bytes) (s : State) : State :=
  match s.pipe? tenant with
  | none => s
  | some p =>
    match (if p.st == .running then p.samples.find? (·.failed) else none) with
    | none => s
    | some x =>
      let s1 := s.onPipe tenant fun y => { y with retries := y.retries + 1 }
      if x.at_ = 2 then s1.fetchBody tenant x pcie else s1.fetchHeader tenant p x pcie
def execFetchRetry (tenant : Nat) (pcie : Option Bytes) (s : State) : Host.Outcome State Fault Refusal :=
  .next (fetchRetryStep tenant pcie s)

/-- span of R513. -/
def Pipeline.span (p : Pipeline) : Nat := (p.f 82 2 - 1) * p.f 84 2 + 1
/-- Frames that admission measures: declared, or LENGTH ÷ 64. -/
def framesOf (e : Bytes) (h : Config.SampleHeader) : Nat := h.frames.getD (fld e 16 8 / 64)

/-- The checks of R513, in order: status and cause, none when the sample is admitted (DEDUCED, log entry 29). -/
def State.admission (s : State) (t : Nat) (p : Pipeline) (x : Sample) : Option (Nat × Nat) :=
  if !s.manifestOk t x.entry then some (stCorrupt, 1)
  else if limitIn p.cfg limitBits < fld x.entry 16 8 then some (stLimit, 3)
  else match Config.sampleHeader (fld x.entry 1 1) x.bytes with
    | none => some (stCorrupt, 2)
    | some h =>
      let n := framesOf x.entry h
      let bytes := n * h.seq.width * h.seq.height * 3 / 2 * sampleBytes h.seq.depth
      if !decodable h.codec h.seq then some (stLimit, 4)
      else if limitIn p.cfg limitW < h.seq.width || limitIn p.cfg limitH < h.seq.height || limitIn p.cfg limitFrames < n ||
          limitIn p.cfg limitDecoded < bytes then some (stLimit, 3)
      else if n < p.span then some (stCorrupt, 6)
      else none

/-- Work space an admitted sample takes: its bitstream and a frame of the largest size (R514; DEDUCED, log entry 29). -/
def Pipeline.workUsed (p : Pipeline) : Nat :=
  ((p.samples.filter fun x => x.at_ == 2 || x.at_ == 3).map fun x => fld x.entry 16 8 + frameSize p.cfg).sum

/-- A rejected sample goes to the assemble stage, when its queue has room (R509, R520). -/
def State.reject (s : State) (t : Nat) (p : Pipeline) (x : Sample) (k : Nat) (r : Nat × Nat) : State :=
  if 16 ≤ p.count 5 then s
  else (s.onSample t x fun y => { y with at_ := 5, status := r.1, cause := r.2, bytes := [] }).passed t k

/-- An admitted sample: what its headers name (R513). -/
def Sample.admitted (x : Sample) (h : Config.SampleHeader) : Sample :=
  { x with at_ := 2, bytes := [], w := h.seq.width, h := h.seq.height, depth := h.seq.depth, nframes := h.frames.getD 0, codec := h.codec,
           store := h.seq.store }

/-- ADMISSION (R513, R514). -/
def admissionStep (tenant : Nat) (s : State) : State :=
  match s.pipe? tenant with
  | none => s
  | some p =>
    match p.front 1 with
    | none => s
    | some x =>
      match s.admission tenant p x with
      | some r => s.reject tenant p x 1 r
      | none =>
        let h := (Config.sampleHeader (fld x.entry 1 1) x.bytes).getD default
        if 256 ≤ p.count 2 + p.count 3 || p.f 56 8 < p.workUsed + fld x.entry 16 8 + frameSize p.cfg then s
        else (s.onSample tenant x fun y => y.admitted h).passed tenant 1
def execAdmission (tenant : Nat) (s : State) : Host.Outcome State Fault Refusal := .next (admissionStep tenant s)

/-- The draw of an augmentation slot for a sample (R523). -/
def State.augDraw (s : State) (p : Pipeline) (x : Sample) (slot : Nat) : Nat × Nat × Nat × Nat :=
  let k := streamKey (s.pipeSeed p) 1
  philox k.1 k.2 slot 0 x.sample (x.epoch % 2 ^ 24 * 256 + x.sample / 2 ^ 32 % 256)
/-- First frame of a sample's clip. -/
def State.firstFrame (s : State) (p : Pipeline) (x : Sample) : Nat := (s.augDraw p x 0).1 % (x.nframes - p.span + 1)

/-- The stream that the pipeline has opened for a sample. -/
def State.sampleStream (s : State) (t : Nat) (x : Sample) : Option Stream :=
  s.media.streams.find? fun y => y.tenant == t && y.feeds == some (x.n, x.slot)

/-- Pictures that a sample's stream has shown so far: with a record, or counted as discarded (DESIGN CHOICE, log entry 27). -/
def Stream.picsShown (y : Stream) : List Shown := y.shown.filter fun r => !r.last
def Stream.frameCount (y : Stream) : Nat := y.picsShown.length + (y.shown.map (·.count)).sum

/-- The outcome of a sample's decode, none while it is open: whether every record up to the last frame it uses has status OK,
and size and frame count are those of its headers; a sample whose headers declare no frame count has the frames that it
decodes to (R515; DESIGN CHOICE, log entry 27). -/
def State.decodeOutcome (s : State) (p : Pipeline) (x : Sample) (y : Stream) : Option Bool :=
  let pics := y.picsShown
  let ended := y.shown.any (·.last)
  let total := if x.nframes = 0 then y.frameCount else x.nframes
  let used := s.firstFrame p { x with nframes := total } + p.span
  if x.nframes = 0 && !ended then none
  else if total < p.span || (pics.take used).any (fun r => r.status != stOK) ||
      pics.any (fun r => r.status == stOK && !(r.w == x.w && r.h == x.h)) || (ended && (y.frameCount != total || pics.length < used)) then
    some false
  else if ended then some true
  else none

/-- The stream that the decode stage opens for a sample: class 0, the pipeline's limits, and the buffers that the reference
store needs; its bytes and an END are fed at once (R472; DESIGN CHOICE, log entry 27). -/
def Pipeline.feedStream (p : Pipeline) (x : Sample) (handle order now : Nat) : Stream :=
  let cfg := padTo 128 ([0, BitVec.ofNat 8 x.codec, 0, 10] ++ toLE 2 (limitIn p.cfg limitW) ++ toLE 2 (limitIn p.cfg limitH) ++ toLE 2 (max 2 (x.store + 1)))
  let body := if fld x.entry 1 1 = 3 then Config.elementary x.bytes else x.bytes
  let fed : Fed := { tag := 0, order := order, feedUs := now, bytes := body, good := true }
  let last : Chunk := { uid := 0, last := true, tag := 0, addr := 0, len := 0, order := order + 1, feedUs := now }
  { Stream.fresh handle p.tenant cfg with feeds := some (x.n, x.slot), chunks := [fed], unread := [last] }

/-- Opens the stream of a sample once the pool has its buffers and the engine accepts work (R472, R479). -/
def State.openFeed (s : State) (p : Pipeline) (x : Sample) : State :=
  let h := 0x10000 + lowestFree ((s.media.streams.filter (·.feeds.isSome)).map fun y => y.handle - 0x10000)
  let o := s.media.feedOrder
  let y := p.feedStream x h o s.clk.nowUs
  if 1024 < s.buffersUsed + y.f 8 2 || s.blocked 8 0 0 || !s.domOn 3 then s
  else State.mediaOn { s with media := { s.media with streams := s.media.streams ++ [y], feedOrder := o + 2 } }

/-- The first sample at the decode stage whose outcome stands, with its stream. -/
def State.decodedSample (s : State) (p : Pipeline) : Option (Sample × Stream × Bool) :=
  p.samples.findSome? fun x =>
    if x.at_ != 3 || x.failed then none
    else ((s.sampleStream p.tenant x).filter fun y => y.st == .opened).bind fun y => (s.decodeOutcome p x y).map fun b => (x, y, b)

/-- A sample that has decoded. -/
def Sample.decoded (x : Sample) (y : Stream) : Sample :=
  { x with at_ := 4, bytes := [], nframes := if x.nframes = 0 then y.frameCount else x.nframes,
           frames := y.picsShown.map fun r => (r.depth, r.planes) }

/-- DECODE (R472, R515): the first sample whose outcome stands moves on and its stream closes under MODE 1; else the first
sample without a stream gets one. Its pictures run in the media engine. -/
def decodeSampleStep (tenant : Nat) (s : State) : State :=
  match s.pipe? tenant with
  | none => s
  | some p =>
    if p.st != .running then s
    else match s.decodedSample p with
      | some (x, y, good) =>
        let one := fun (v : Nat × Nat) => v == (x.n, x.slot)
        if !good then (if 16 ≤ p.count 5 then s else (s.reject tenant p x 2 (stCorrupt, 5)).endFeeds tenant one)
        else if 32 ≤ p.count 4 then s
        else ((s.onSample tenant x fun z => z.decoded y).passed tenant 2).endFeeds tenant one
      | none =>
        match p.samples.find? fun x => x.at_ == 3 && !x.failed && (s.sampleStream tenant x).isNone with
        | some x => s.openFeed p x
        | none => s
def execDecodeSample (tenant : Nat) (s : State) : Host.Outcome State Fault Refusal := .next (decodeSampleStep tenant s)

/-- H32 value of a channel of a decoded frame at a luma position (R524). -/
def Sample.pixel (x : Sample) (frame c y z : Nat) : BitVec 32 :=
  let f := (x.frames[frame]?).getD (8, [])
  let sb := sampleBytes f.1
  let i := if c = 0 then y * x.w + z else x.w * x.h + 2 * (y / 2 * ceilDiv x.w 2 + z / 2) + (c - 1)
  toH (.fin false (fld f.2 (i * sb) sb) (-(f.1 : Int)))

/-- Box of a clip frame: side, left, top. -/
def boxOf (b : Bytes) (d : Nat × Nat × Nat × Nat) (w h : Nat) : Nat × Nat × Nat :=
  let side := min (min (fld b 90 2 + d.1 % (fld b 92 2 - fld b 90 2 + 1)) w) h
  (side, d.2.1 % (w - side + 1), d.2.2.1 % (h - side + 1))

/-- One element of a clip: crop and resize of R282 with the box of the frame (R524). -/
def clipElem (b : Bytes) (x : Sample) (frame : Nat) (box : Nat × Nat × Nat) (flip : Bool) (i j c : Nat) : Nat :=
  let x0 := box.2.1
  let x1 := box.2.1 + box.1 - 1
  let y := sampleAt false (hNat box.2.2) (hNat (box.2.2 + box.1 - 1)) x.h (fld b 86 2) i
  let z := sampleAt false (hNat (if flip then x1 else x0)) (hNat (if flip then x0 else x1)) x.w (fld b 88 2) j
  match cropAt x.h x.w y z with
  | some a =>
    let p := fun r k => x.pixel frame c r k
    bilinear .s16 a.fy a.fx (p a.yl a.xl) (p a.yl a.xh) (p a.yh a.xl) (p a.yh a.xh)
  | none => 0

/-- The clip tensor of a sample: frames, rows, columns, channels. -/
def State.clipOf (s : State) (p : Pipeline) (x : Sample) (flip : Bool) : Bytes :=
  let f0 := s.firstFrame p x
  (List.range (p.f 82 2)).flatMap fun t =>
    let box := boxOf p.cfg (s.augDraw p x (16 + t)) x.w x.h
    (List.range (p.f 86 2)).flatMap fun i => (List.range (p.f 88 2)).flatMap fun j => (List.range 3).flatMap fun c =>
      toLE 2 (clipElem p.cfg x (f0 + t * p.f 84 2) box flip i j c)

/-- AUGMENT (R523, R524). -/
def augmentStep (tenant : Nat) (s : State) : State :=
  match s.pipe? tenant with
  | none => s
  | some p =>
    match p.front 4 with
    | none => s
    | some x =>
      if 16 ≤ p.count 5 then s
      else
        let flip := bitOf (p.f 3 1) 0 && bitOf (s.augDraw p x 1).1 0
        (s.onSample tenant x fun y => { y with at_ := 5, clip := s.clipOf p x flip, flip := flip, frames := [] }).passed tenant 3
def execAugment (tenant : Nat) (s : State) : Host.Outcome State Fault Refusal := .next (augmentStep tenant s)

/-- ASSEMBLE (R520, R521, R532): a slot is written; the batch completes with its last slot. -/
def assembleStep (tenant : Nat) (s : State) : State :=
  match s.pipe? tenant with
  | none => s
  | some p =>
    match p.front 5 with
    | none => s
    | some x =>
      let ok := x.status == stOK
      let clip := if ok then x.clip else zeros (tensorBytes p.cfg)
      let s1 := s.writeSlot p x.n x.slot clip x.sample (if ok then 0x3F800000 else 0) x.status x.cause x.flip
      let s2 := if ok then s1 else s1.event 0x0041 0xFF 0 (x.sample % 2 ^ 32) x.cause 0
      let put := modFirst (fun b => b.n == x.n) (fun b => { b with written := b.written ++ [(x.slot, x.sample, x.status, x.cause)] })
      let s3 := s2.onPipe tenant fun y =>
        { y with samples := y.samples.filter (fun z => !(z.n == x.n && z.slot == x.slot)), buffers := put y.buffers,
                 assembled := y.assembled + 1, rejected := if ok then y.rejected else y.rejected + 1 }
      (s3.passed tenant 4).completeBatches tenant 9
def execAssemble (tenant : Nat) (s : State) : Host.Outcome State Fault Refusal := .next (assembleStep tenant s)

/-! ### Status (R511, R530) -/

/-- Counts a microsecond of the stages that are starved or blocked (R511). -/
def Pipeline.tick (p : Pipeline) : Pipeline :=
  if p.st != .running then p
  else
    let up := fun k => (List.range k).any fun i => p.inStage i != 0
    let out := fun k => decide (k < 4) && decide (stageDepth (k + 1) ≤ p.inStage (k + 1))
    { p with starved := p.starved.zipIdx.map fun v => if p.inStage v.2 == 0 && up v.2 then v.1 + 1 else v.1
             blocked := p.blocked.zipIdx.map fun v => if out v.2 then v.1 + 1 else v.1 }

/-- STATE of the status record. -/
def PipeState.code : PipeState → Nat
  | .unconfigured => 0
  | .stopped => 1
  | .running => 2
  | .stopping => 3

/-- The status record. -/
def Pipeline.record (p : Pipeline) : Bytes :=
  let n := p.recSeq + 1
  let open_ := (p.buffers.filter fun b => b.st != 2).foldl (fun m b => min m b.n) p.seqNo
  let e := p.epochOf open_
  toLE 8 n ++ toLE 1 p.st.code ++ zeros 3 ++ toLE 4 e.1 ++ toLE 8 e.2 ++ toLE 8 p.assembled ++ toLE 8 p.rejected ++ toLE 8 p.retries ++
    toLE 8 p.waitUs ++ zeros 8 ++
    ((List.range 5).flatMap fun k => toLE 4 (p.inStage k) ++ toLE 4 (stageDepth k) ++ toLE 8 (p.starved.getD k 0) ++
      toLE 8 (p.blocked.getD k 0) ++ toLE 8 (p.items.getD k 0)) ++ zeros 24 ++ toLE 8 n

/-- PIPE_STATUS_REWRITE. -/
def pipeStatusRewriteStep (tenant : Nat) (s : State) : State :=
  match s.pipe? tenant with
  | none => s
  | some p =>
    if p.st == .unconfigured then s
    else (s.storeSoon 7 (p.f 64 8) p.record).onPipe tenant fun x => { x with recSeq := x.recSeq + 1 }
def execPipeStatusRewrite (tenant : Nat) (s : State) : Host.Outcome State Fault Refusal :=
  .next (pipeStatusRewriteStep tenant s)

end Sys2Proof.Machine
end

