-- ==== Sys2Proof/Machine/PowerOps.lean ====
section
/-! DEFINITION. Power domains and what each loses (17 R593, R595), the entry and the start of an episode of reach A and B (17
R602 to R605, R609), the power-up after release (17 R607), sleep (17 R596, R597; 11 R366) and the steps of a block reset
(17 R611, R612). -/

namespace Sys2Proof.Machine

/-! ### What a domain loses (17 power domains table) -/

/-- A core after its tile's domain has been off: what D0 keeps stays (05 R193 to R195) (DEDUCED, log entry 94). -/
def Core.off (c : Core) : Core :=
  { Core.reset with checksumFaults := c.checksumFaults, faultTimes := c.faultTimes, lastFaultMs := c.lastFaultMs,
                    nonfiniteOut := c.nonfiniteOut, fenced := c.fenced }
/-- A governor after its tile's domain has been off: policy, guard, fence and counts stay (03 R103, R107, R111, R113)
(DEDUCED, log entry 94). -/
def Gov.off (g : Gov) : Gov :=
  { Gov.reset with guard := g.guard, guardLedger := g.guardLedger, policy := g.policy, vRated := g.vRated,
                   floorFence := g.floorFence, warned := g.warned, eol := g.eol, ageDue := g.ageDue, emergCount := g.emergCount,
                   emergTimes := g.emergTimes, regEccCe := g.regEccCe }
/-- A tile after its domain has been off (DEDUCED, log entry 94). -/
def Tile.off (x : Tile) : Tile :=
  { Tile.reset with cores := x.cores.map Core.off, gov := x.gov.off, mg := x.mg, selfFence := x.selfFence }

/-- Basins, cistern and accumulator memory of a tile read zero (07 R249). -/
def State.tileZero (s : State) (t : Nat) : State :=
  (s.zeroRange (tileWin t) recOff).zeroRange (accAddr t 0 0 0) (256 * 0x40000)

/-- Whether a remote request belongs to mover `mv`, or to a unit of tile `mv`. -/
def RemoteFor.ofMover (w : RemoteFor) (mv : Nat) : Bool :=
  (w.chan.map (·.1)) == some mv || match w with
    | .unitRead t _ => t == mv
    | .unitWrite t => t == mv
    | _ => false
/-- Outstanding remote requests of a mover, dropped. -/
def State.dropRemotes (s : State) (mv : Nat) : State :=
  { s with fab := { s.fab with remotes := s.fab.remotes.filter fun r => !r.what.ofMover mv } }
/-- A mover whose domain is lost: what its commands had in flight returns ABORTED (DEDUCED, log entry 32). -/
def State.moverLost (s : State) (mv : Nat) : State :=
  match s.mover? mv with
  | none => s
  | some m =>
    let s1 := (s.onMover mv fun x => Mover.reset x.chans.length).dropRemotes mv
    let s2 := (m.chans.flatMap (·.reqs)).foldl State.abortReq s1
    (List.range m.chans.length).foldl (fun st ch => st.finishWait (.chanStop mv ch) stOK 0 0 0) s2

/-- The fabric state that D1 holds, empty (DEDUCED, log entry 95); fenced paths stay until a reset (12 R447). -/
def State.fabricClear (s : State) : State :=
  { s with
    fab := { s.fab with ports := List.replicate 6 Port.reset, fmap := [], routeMap := [], mapWhole := false, mapEventUs := none,
                        txEseq := [], resync := [], triples := [], rx := [], tx := [], granted := [], remotes := [], nextTag := 0, readBuf := [],
                        peerGen := [], wgen := 0, fenceCount := 0 }
    cas := { groups := [], announced := [], colls := [], retain := [], pathFails := [], pathFenced := s.cas.pathFenced, residueFaults := 0,
             residueTimes := [] } }

/-- What D2 holds is lost; the reservoir keeps its data (10 R343; 14 R529). -/
def State.hubLost (s : State) : State :=
  let s1 := s.moverLost 8
  { s1 with
    host := { s1.host with hub := [], atts := List.replicate 4 Attachment.reset, clearHub := 0 }
    media := { s1.media with pipelines := [] }
    resv := { s1.resv with stagingReady := false } }

/-- What D3 holds is lost: streams end without records (13 R488). -/
def State.mediaLost (s : State) : State :=
  { s with media := { s.media with streams := [], decPipes := [], encPipes := [], feedOrder := 0 } }

/-- What a tile's domain holds is lost (DEDUCED, log entry 94). -/
def State.tileLost (s : State) (t : Nat) : State :=
  let s1 := ((s.moverLost t).tileZero t).onTile t Tile.off
  { s1 with host := { s1.host with clearTiles := s1.host.clearTiles &&& ~~~(BitVec.ofNat 8 (2 ^ t)) } }

/-- What a memory group holds is lost, and the writes that waited for it (10 R339). -/
def State.groupLost (s : State) (g : Nat) : State :=
  let s1 : State := { s with mem := { s.mem with
    waiting := s.mem.waiting.filter fun w => !overlaps (g * groupBytes) groupBytes w.2.1 w.2.2.length } }
  (s1.zeroRange (g * groupBytes) groupBytes).onMg g fun m => { m with st := 0, scrubOff := 0 }

/-- A memory group that powers up: zero is written to every line, its poison goes, and accesses wait until it is ready
(10 R338). -/
def State.groupUp (s : State) (g : Nat) : State :=
  (s.zeroRange (g * groupBytes) groupBytes).onMg g fun m => { m with st := 1 }

/-! ### Rails (17 R592) -/

/-- Classes of rails, in the order they power up. -/
inductive RailClass
  | analogue | core | io
  deriving DecidableEq, Repr
/-- Place of a class in the power-up order. -/
def RailClass.rank : RailClass → Nat
  | .analogue => 0
  | .core => 1
  | .io => 2

/-- Class of a rail. -/
def Rail.cls : Rail → RailClass
  | .vanaSerdes | .vlaser | .vpp _ => .analogue
  | .vaon | .vcoreHub _ | .vcore _ | .vsram _ | .vddc _ => .core
  | .vioSb | .vioPcie | .vnand | .vnandq | .vddq _ => .io

/-- Rails of a domain. -/
def railsOf (d : Nat) : List Rail :=
  if d = 0 then [.vaon, .vioSb]
  else if d = 1 then [.vcoreHub 1, .vanaSerdes, .vlaser]
  else if d = 2 then [.vcoreHub 2, .vioPcie, .vnand, .vnandq]
  else if d = 3 then [.vcoreHub 3]
  else if d < 12 then [.vcore (d - 4), .vsram (d - 4)]
  else [.vpp (d - 12), .vddc (d - 12), .vddq (d - 12)]

/-- The voltage a rail is set to, in mV: a tile core rail's by the margin governor. -/
def State.railSet (s : State) : Rail → Nat
  | .vaon | .vcoreHub _ => 750
  | .vioSb | .vlaser => 3300
  | .vanaSerdes => 900
  | .vioPcie => 850
  | .vnand => 2500
  | .vnandq => 1200
  | .vcore t => ((s.tiles[t]?).map fun x => x.gov.rail).getD 0
  | .vsram _ => 800
  | .vpp _ => 1800
  | .vddc _ => 1050
  | .vddq _ => 700
/-- The voltage a rail carries, in mV. -/
def State.railMv (s : State) (r : Rail) : Nat := if s.pow.rails.contains r then s.railSet r else 0
/-- Within 3 % of its voltage. -/
def State.railGood (s : State) (r : Rail) : Bool :=
  decide ((s.railMv r - s.railSet r + (s.railSet r - s.railMv r)) * 100 ≤ 3 * s.railSet r)
/-- Below 10 % of its voltage. -/
def State.railLow (s : State) (r : Rail) : Bool := s.railMv r == 0 || decide (s.railMv r * 10 < s.railSet r)

/-- Switches the rails of a class of a domain on, once every rail of the classes before it is within 3 %. -/
def State.classOn (s : State) (d : Nat) (c : RailClass) : State :=
  if ((railsOf d).filter fun r => r.cls.rank < c.rank).all s.railGood then
    { s with pow := { s.pow with
        rails := s.pow.rails ++ (railsOf d).filter fun r => r.cls = c && !s.pow.rails.contains r } }
  else s
/-- Switches them off, once every rail of the classes behind it has fallen below 10 %. -/
def State.classOff (s : State) (d : Nat) (c : RailClass) : State :=
  if ((railsOf d).filter fun r => c.rank < r.cls.rank).all s.railLow then
    { s with pow := { s.pow with rails := s.pow.rails.filter fun r => !((railsOf d).contains r && r.cls = c) } }
  else s
/-- A domain's rails come up: analogue, core, I/O. -/
def State.railsUp (s : State) (d : Nat) : State := ((s.classOn d .analogue).classOn d .core).classOn d .io
/-- A domain's rails go down: I/O, core, analogue. -/
def State.railsDown (s : State) (d : Nat) : State := ((s.classOff d .io).classOff d .core).classOff d .analogue

/-! ### Switching (17 R593, R595) -/

/-- Bit of a domain set or cleared. -/
def State.setDom (s : State) (d : Nat) (on : Bool) : State :=
  let b := BitVec.ofNat 20 (2 ^ d)
  { s with pow := { s.pow with domains := if on then s.pow.domains ||| b else s.pow.domains &&& ~~~b } }

/-- Powers a domain off: its rails go down and it loses what it holds. -/
def State.domainOff (s : State) (d : Nat) : State :=
  if !s.domOn d then s
  else
    let s1 := (s.railsDown d).setDom d false
    if d = 1 then (s1.loseRemotes fun _ => true).fabricClear
    else if d = 2 then s1.hubLost
    else if d = 3 then s1.mediaLost
    else if 4 ≤ d ∧ d < 12 then s1.tileLost (d - 4)
    else if 12 ≤ d then s1.groupLost (d - 12)
    else s1

/-- Powers a domain on, its rails class by class: the sluices of D1 stand closed, a tile's rail is at 0.75 V and its floor is to be measured (03 R94),
a memory group initialises (10 R338) (DEDUCED, log entry 93). -/
def State.domainOn (s : State) (d : Nat) : State :=
  if s.domOn d then s
  else
    let s0 := if 4 ≤ d ∧ d < 12 then s.onGov (d - 4) fun g => { g with rail := 750, floorSet := false } else s
    let s1 := (s0.railsUp d).setDom d true
    if d = 1 then { s1 with fab := { s1.fab with sluices := false } }
    else if 12 ≤ d then s1.groupUp (d - 12)
    else s1

/-- D2, D12 to D19, D4 to D11 and D3: the module power-up order behind D1. -/
def upOrder : List Nat := [2] ++ (List.range 8).map (12 + ·) ++ (List.range 8).map (4 + ·) ++ [3]
/-- The module power-up order without D0. -/
def fullOrder : List Nat := 1 :: upOrder
/-- D3, D4 to D11, D12 to D19 and D2 (17 R596, R603). -/
def downOrder : List Nat := [3] ++ (List.range 8).map (4 + ·) ++ (List.range 8).map (12 + ·) ++ [2]

/-- Whether a set of powered domains keeps R593. -/
def domainsLegal (d : Nat) : Bool :=
  (!bitOf d 1 || bitOf d 0) && (!bitOf d 2 || bitOf d 0) && (!bitOf d 3 || bitOf d 2) &&
    (List.range 8).all fun t => (!bitOf d (12 + t) || bitOf d 2) && (!bitOf d (4 + t) || (bitOf d 2 && bitOf d (12 + t)))

/-- Whether every domain of a mask has finished switching (R595). -/
def State.domainsDone (s : State) (mask : Nat) : Bool :=
  (List.range 8).all fun t =>
    (!bitOf mask (4 + t) || !s.tileOn t || (s.tiles[t]?).all fun x => x.gov.floorSet) &&
      (!bitOf mask (12 + t) || s.groupOff t || s.groupReady t)
/-- Replies to the DOMAIN_POWER commands whose domains have finished. -/
def State.domainReplies (s : State) : State :=
  (s.host.running.filter fun c => match c.wait with
    | .domains m => m != 0 && s.domainsDone m.toNat
    | _ => false).foldl (fun st c => st.finish c stOK 0 0 0) s

/-- Whether bypassing this module makes three bypassed positions in a row on one of its rings (11 R412). -/
def State.bypassLimit (s : State) : Bool :=
  match s.fab.modId, s.fab.dims with
  | some self, some d =>
    [0, 1, 2].any fun ax =>
      let n := extent d ax
      decide (3 ≤ n) && [0, 1, 2].any fun k => [0, 1, 2].all fun i =>
        let m := withCoord self ax ((coord self ax + n - k + i) % n)
        m == self || !(mapEntry s.fab.fmap m).1
  | _, _ => false

/-! ### Episodes (17 R600 to R609) -/

/-- Cause code. -/
def Source.code : Source → Nat
  | .powerOn => 1
  | .mainLoss => 2
  | .resetPin => 3
  | .watchdog => 4
  | .thermalTrip => 5
  | .firmware => 6
  | .peer => 7
/-- Whether a source has reach A. -/
def Source.reachA : Source → Bool
  | .powerOn => true
  | .mainLoss => true
  | .resetPin => true
  | .watchdog => true
  | _ => false
/-- Whether a source asserts for 1 ms and then releases by itself (DEDUCED, log entry 91). -/
def Source.timed : Source → Bool
  | .watchdog => true
  | .firmware => true
  | .peer => true
  | _ => false

/-- ABANDON for every group with an outstanding instance, to every other member (12 R465). -/
def State.abandonAll (s : State) : State :=
  (s.cas.groups.filter fun g => s.cas.colls.any fun r => r.gid == g.gid).foldl (fun st g =>
    st.sendOthers g.members fun m => ctlPkt 0x2B m (((s.job? g.job).map (·.jobId)).getD 0) g.gid []) s

/-- A tile at an episode of reach A (`a`) or B: what each counter says it counts from goes back (03 R103, R113; 05 R193 to
R195; 10 memory health record; 17 R614; 18 R623) (DEDUCED, log entries 95, 96). -/
def Tile.episode (a : Bool) (x : Tile) : Tile :=
  { x with
    cores := x.cores.map fun c =>
      { c with fenced := false, nonfiniteOut := 0, lastFaultMs := 0, checksumFaults := if a then 0 else c.checksumFaults }
    gov := { x.gov with policy := Policy.reset, emergCount := 0, regEccCe := 0, warned := false, eol := false,
                        emergTimes := if a then [] else x.gov.emergTimes }
    mg := if a then { x.mg with ceLines := 0, ueEvents := 0, onDie := 0, passes := 0, corrected := [], retTimes := [],
                                passHours := 24, nextHours := 24, recUs := none }
          else { x.mg with passHours := 24, nextHours := 24 }
    selfFence := false }

/-- A checkpoint slot whose writing a reset cuts off holds no commit record (16 R568, R569). -/
def CkptSlot.cut (c : CkptSlot) : CkptSlot := if c.st = 1 then CkptSlot.empty else c

/-- What ends with an episode of reach A or B: commands without a reply (R604), tenants, jobs, kernels, groups and
collectives (12 R465), streams, pipelines and caches; caps and policies take their reset values (03 R101, R103; 19 R644);
the reservoir takes no further write (10 R347). -/
def State.episodeEnds (s : State) (a : Bool) : State :=
  { s with
    hubMover := Mover.reset 32
    tiles := s.tiles.map fun x => { x with mover := Mover.reset 64 }
    host := { s.host with running := [], tenants := [], clearTiles := 0, clearHub := 0 }
    work := { jobs := [], kernels := [], remoteSig := [], blockResets := [] }
    tel := { s.tel with powerCap := 4000, carrierCap := 4000, capLive := 4000, capRejected := false, clampPower := none, clampCount := 0 }
    fab := { s.fab with triples := [], remotes := [], readBuf := [] }
    cas := { groups := [], announced := [], colls := [], retain := [], pathFails := [], pathFenced := [], residueFaults := 0,
             residueTimes := if a then [] else s.cas.residueTimes }
    media := { streams := [], decPipes := [], encPipes := [], feedOrder := 0, pipelines := [], kvs := [], rollouts := [] }
    resv := { s.resv with slot0 := s.resv.slot0.cut, slot1 := s.resv.slot1.cut, resHold := true }
    pow := { s.pow with bringUp := .none, asleep := false } }

/-- D0's logic in reset (R602; 11 R350; 17 R615; 18 R620; 19 R643) (DEDUCED, log entries 46, 95). -/
def State.logicReset (s : State) : State :=
  { s with
    tel := { s.tel with events := [], eventSerial := 0, telemSeq := 0, telemPage := [], alertN := true, thermTripN := true,
                        sbTelem := 0, inputMw := 0, inputMv := 0, loopSeen := 0xFF }
    fab := { s.fab with modId := none, dims := none, slotMap := [], fabDigest := [], loopback := false }
    pow := { s.pow with stage := 0 }
    boot := { s.boot with dynAddr := none, recOffset := 0, recBuf := [], rstate := 0, recReason := 0, recStart := false,
                          recClear := false, manifestOk := false,
                          stage1 := { s.boot.stage1 with running := none, ranTry := false }
                          stage2 := { s.boot.stage2 with running := none, ranTry := false }
                          config := { s.boot.config with running := none, ranTry := false } } }

/-- WIDTH on every port with a partner (11 R366). -/
def State.askWidths (s : State) : State :=
  (List.range 6).foldl (fun st i => match st.fab.ports[i]? with
    | some q =>
      if q.partner.isSome then (st.sendLmsg i (padTo 64 (toLE 1 3 ++ toLE 1 (st.ownWidth q)))).setWidth i else st
    | none => st) s

/-- Entry of reach B (R603), which ends a sleep: its links ask for their trained width again (R599; 11 R366)
(DEDUCED, log entries 95, 96, 105). -/
def State.enterB (s : State) : State :=
  let s1 := downOrder.foldl State.domainOff (s.abandonAll.episodeEnds false)
  let s2 : State := { s1 with tiles := s1.tiles.map (Tile.episode false) }
  if s.pow.asleep then s2.askWidths else s2

/-- Entry of reach A (R602) (DEDUCED, log entry 95). -/
def State.enterA (s : State) : State :=
  let s1 := fullOrder.reverse.foldl State.domainOff (s.episodeEnds true)
  { s1 with tiles := s1.tiles.map (Tile.episode true) }.logicReset

/-- Whether a source comes before another when both are asserted at once: the wider reach, then the lower code (R609). -/
def Source.before (x y : Source) : Bool := (x.reachA && !y.reachA) || (x.reachA == y.reachA && decide (x.code < y.code))
/-- What the cause register records when `x` asserts: of the sources first seen in this sample, the one that comes before the
others (R608, R609). Rows between which no time passes lie in one sample (DESIGN CHOICE, log entry 83). -/
def State.recorded (s : State) (x : Source) : Source := s.pow.sampled.foldl (fun a y => if y.before a then y else a) x

/-- A source asserts: the episode begins, or widens, or goes on; the cause register records it (R605, R609). A level source
asserted already makes no new assertion (DESIGN CHOICE, log entry 83). -/
def State.assertSource (s : State) (x : Source) : State :=
  if !s.pow.auxGood || (s.pow.sources.contains x && !x.timed) then s
  else
    let wide := x.reachA || s.pow.episode == some true
    let s1 := if wide && s.pow.episode != some true then s.enterA
              else if s.pow.episode.isNone then s.enterB else s
    { s1 with pow := { s1.pow with sources := s1.pow.sources.filter (· != x) ++ [x], sampled := s.pow.sampled ++ [x],
                                   episode := some wide, cause := (s.recorded x).code, reach := !wide } }

/-- A source releases. -/
def State.releaseSource (s : State) (x : Source) : State :=
  { s with pow := { s.pow with sources := s.pow.sources.filter (· != x) } }

/-- Powers the domains up after release, once V_MAIN is good (R587, R588, R607): all behind stage 2, D2 alone behind stage 1
(18 R621). A reset of reach B leaves D1 as it is (DEDUCED, log entry 92). -/
def State.powerUp (s : State) : State :=
  if !s.pow.auxHeld || !s.pow.mainGood || s.pow.episode.isSome || s.pow.asleep || s.domOn 2 then s
  else if s.pow.stage = 1 then
    let s1 := s.domainOn 2
    { s1 with pow := { s1.pow with bringUp := .failed } }
  else if s.pow.stage = 2 then
    let s1 := (if s.pow.reach then upOrder else fullOrder).foldl State.domainOn s
    { s1 with pow := { s1.pow with bringUp := .boot } }
  else s

/-! ### Sleep (17 R596, R597; 11 R366) -/

/-- Enters sleep: the tenant is released without an orphan hold, the domains go off, the links to one lane
(DEDUCED, log entry 105). -/
def State.enterSleep (s : State) (tenant : Nat) : State :=
  let s1 := s.releaseTenant tenant
  let s2 := match s1.tenant? tenant with
    | some t => s1.dropTenant t
    | none => s1
  let s3 := downOrder.foldl State.domainOff s2
  State.askWidths { s3 with pow := { s3.pow with asleep := true, bringUp := .none } }

/-- Leaves sleep; no effect when awake or in an episode (DEDUCED, log entry 105). -/
def State.leaveSleep (s : State) : State :=
  if !s.pow.asleep || s.pow.episode.isSome then s
  else
    let s1 := upOrder.foldl State.domainOn { s with pow := { s.pow with asleep := false } }
    State.askWidths { s1 with pow := { s1.pow with bringUp := .selftest } }

/-! ### Block reset (17 R611; 05 R198; 06 R231; 09 R318; 13 R488; 14 R529) -/

/-- Mover channels of a block. -/
def BlockReset.chans (b : BlockReset) : List (Nat × Nat) :=
  if b.target = 1 then (List.range 64).map fun c => (b.tile, c)
  else if b.target = 6 then (List.range 8).map fun c => (b.tile, 8 * b.index + c)
  else if b.target = 7 then (List.range 8).map fun c => (8, 8 * b.index + c)
  else []

/-- The kernel that a block reset ends: the tile's, where the block is part of it; a channel group is, where a pair of the
kernel owns one of its channels (07 R235, R259). -/
def State.blockKernel (s : State) (b : BlockReset) : Option Kernel :=
  if 6 < b.target then none
  else if b.target = 6 then (s.kernelOn b.tile).filter fun k =>
    (List.range 8).any fun c => decide (8 * b.index + c < 56) && bitOf k.pairMask.toNat ((8 * b.index + c) % 16)
  else (s.kernelOn b.tile).filter fun k =>
    b.target = 1 || (b.target ≤ 3 && bitOf k.pairMask.toNat b.index) ||
      ((s.tiles[b.tile]?).any fun x => (if b.target = 4 then x.xu else x.spw).any fun r => r.kid == k.kid)

/-- Whether the channels of a block have nothing to do (DEDUCED, log entry 103). -/
def State.chansIdle (s : State) (b : BlockReset) : Bool :=
  b.chans.all fun c => (s.chan? c.1 c.2).all fun x => x.reqs.isEmpty && x.act.isNone && !x.stopping

/-- A block takes no new work: the input pipeline stops (14 R526, R529). -/
def State.blockHalt (s : State) (b : BlockReset) : State :=
  if b.target = 9 then (s.media.pipelines.filter fun p => p.tenant == b.tenant).foldl State.pipeHalt s else s

/-- Whether a block has finished the work it has started (DEDUCED, log entry 103). -/
def State.blockIdle (s : State) (b : BlockReset) : Bool :=
  s.chansIdle b &&
    match s.tiles[b.tile]? with
    | none => true
    | some x =>
      if b.target = 1 then x.kernel.isNone && x.xu.isEmpty && x.spw.isEmpty
      else if b.target = 2 then (x.cores[b.index]?).all fun c => c.runs.isEmpty
      else if b.target = 4 then x.xuDone.isNone && x.xuNet.waiting == 0 && x.xuNet.todo.isEmpty
      else if b.target = 5 then x.spwDone.isNone
      else if b.target = 8 then
        s.media.decPipes.isEmpty && s.media.encPipes.isEmpty &&
          s.media.streams.all fun y => y.queue.isEmpty && y.unread.isEmpty && (y.encode || y.st == .closing || y.next.isNone)
      else if b.target = 9 then s.media.pipelines.all fun p => p.tenant != b.tenant || p.st != .stopping
      else true

/-- Items that the stop returns ABORTED (DEDUCED, log entry 33). -/
def State.blockItems (s : State) (b : BlockReset) : Nat :=
  let reqs := b.chans.flatMap fun c => ((s.chan? c.1 c.2).map (·.reqs)).getD []
  let unit := match s.tiles[b.tile]? with
    | some x => (if b.target = 1 || b.target = 4 then x.xu else []) ++ (if b.target = 1 || b.target = 5 then x.spw else [])
    | none => []
  let media := if b.target = 8 then ((s.media.streams.filter (·.feeds.isNone)).map fun y => (y.queue.filter fun q => !q.last).length + y.unread.length).sum else 0
  min 0xFFFF ((reqs.map fun r => r.count - r.done).sum + (unit.map fun r => r.count - r.done).sum + media +
    if (s.blockKernel b).isSome then 1 else 0)

/-- Ends a block's unfinished work under the stop rule (02 R71). -/
def State.blockStop (s : State) (b : BlockReset) : State :=
  let s1 := match s.blockKernel b with
    | some k => s.haltKernel k.kid
    | none => s
  let s2 := b.chans.foldl (fun st c => st.stopChan c.1 c.2) s1
  if b.target = 8 then (s2.media.streams.foldl (fun st y => st.stopStream y.handle) s2).mediaOn else s2

/-- A matrix core reset: slots, owned spill buffers, operand descriptors and contexts zero, every slot the core's own; its
fence ends (05 R194, R195, R198). `spill` is false in a tile reset, which keeps the cistern. -/
def State.resetCore (s : State) (t c : Nat) (spill : Bool) : State :=
  let s1 := match s.core? t c with
    | some x => if spill then (x.ctx.filter fun (y : SlotCtx) => y.spilled).foldl (fun (st : State) (y : SlotCtx) => st.zeroRange (cisAddr t y.x64Addr) 0x80000) s else s
    | none => s
  (s1.zeroRange (accAddr t c 0 0) (16 * 0x40000)).onCore t c fun x =>
    { Core.reset with checksumFaults := x.checksumFaults, faultTimes := x.faultTimes, lastFaultMs := x.lastFaultMs }
/-- A vector engine reset: slots it held go back to the matrix core (06 R231). -/
def State.resetEngine (s : State) (t c : Nat) : State :=
  (s.onEngine t c fun _ => Engine.reset).onCore t c fun x => { x with given := List.replicate 16 false }
/-- XU reset. -/
def State.resetXu (s : State) (t : Nat) : State :=
  { s.onTile t fun x => { x with xu := [], xuDone := none, xuNet := UnitNet.none } with
    fab := { s.fab with remotes := s.fab.remotes.filter fun r => match r.what with
      | .unitRead u _ => u != t
      | .unitWrite u => u != t
      | _ => true } }
/-- Spillway engine reset (09 R318). -/
def State.resetSpw (s : State) (t : Nat) : State := s.onTile t fun x => { x with spw := [], spwDone := none, refBuf := [] }

/-- The reset itself (R611 step 4). -/
def State.blockClear (s : State) (b : BlockReset) : State :=
  let s1 := match s.blockKernel b with
    | some k => s.haltKernel k.kid
    | none => s
  let s2 := b.chans.foldl (fun st c => st.onChan c.1 c.2 fun _ => Chan.reset) s1
  let t := b.tile
  if b.target = 1 then
    let s3 := (List.range 16).foldl (fun st c => (st.resetCore t c false).resetEngine t c) s2
    (((s3.resetXu t).resetSpw t).onTile t fun x =>
      { x with paths := List.replicate 16 Path.reset, mover := Mover.reset 64, tok := [], tokOwner := [] }).onGov t fun g =>
        { g with rail := 750, floorSet := false }
  else if b.target = 2 then s2.resetCore t b.index true
  else if b.target = 3 then s2.resetEngine t b.index
  else if b.target = 4 then s2.resetXu t
  else if b.target = 5 then s2.resetSpw t
  else if b.target = 8 then
    s2.endStreams fun _ => true
  else s2

/-- Takes one block reset on as far as it goes, and replies at its end. -/
def State.blockOn (s : State) (b : BlockReset) : State :=
  let measured := (s.tiles[b.tile]?).all fun x => x.gov.floorSet || !s.tileOn b.tile
  if b.stage < 2 && !s.blockIdle b then s
  else
    let s1 := if b.stage < 2 then s.blockClear b else s
    if b.target = 1 && (b.stage < 2 || !measured) && s.tileOn b.tile then
      { s1 with work := { s1.work with
          blockResets := modFirst (fun x => x.uid == b.uid) (fun x => { x with stage := 2 }) s1.work.blockResets } }
    else
      let s2 : State := { s1 with work := { s1.work with blockResets := s1.work.blockResets.filter fun x => x.uid != b.uid } }
      s2.finishUid b.uid stOK ((if b.late then 1 else 0) + b.items * 2 ^ 16) 0 0

/-- Takes every block reset on (DEDUCED, log entry 103). -/
def State.blocksOn (s : State) : State := s.work.blockResets.foldl State.blockOn s

/-- Whether one block lies in the other, or is it (R612). -/
def BlockReset.meets (a b : BlockReset) : Bool :=
  (a.target == b.target && a.tile == b.tile && a.index == b.index && (a.target != 9 || a.tenant == b.tenant)) ||
    (a.tile == b.tile && ((a.target == 1 && decide (2 ≤ b.target ∧ b.target ≤ 6)) || (b.target == 1 && decide (2 ≤ a.target ∧ a.target ≤ 6))))

end Sys2Proof.Machine
end

