-- ==== Sys2Proof/Machine/PowerRst.lean ====
section
/-! DEFINITION. Power, domains and reset (17): DOMAIN_POWER, SLEEP, WAKE, BLOCK_RESET, MODULE_RESET, SCRUB_POLICY, their packets
and timers, the supplies, the reset sources, the release from reset and the end of self-test. -/

namespace Sys2Proof.Machine

/-! ### Commands -/

/-- DOMAIN_POWER: the checks of R594 in order, then the switch; the reply waits for every named domain (R595). -/
def domainPowerStep (att ring : Nat) (s : State) : State :=
  s.startCmd 0x0702 .inline att ring fun c s =>
    let mask := c.f 16 4
    let on := c.f 20 1 == 1
    let ds := (List.range 20).filter (bitOf mask)
    let old := s.pow.domains.toNat
    let new := if on then old ||| mask else old - (old &&& mask)
    let tiles := (List.range 8).filter fun t => bitOf mask (4 + t) || bitOf mask (12 + t)
    if !c.z 21 43 || 1 < c.f 20 1 || mask = 0 || 2 ^ 20 ≤ mask || bitOf mask 0 || bitOf mask 2 then (s, .st stBadParam)
    else if !(tiles.all fun t => bitOf (s.tilesOf c.tenant) t) || ((bitOf mask 1 || bitOf mask 3) && !s.holdsAll c.tenant) then
      (s, .st stDenied)
    else if !domainsLegal new then (s, .st stBadParam)
    else if !on && ((tiles.any fun t => (bitOf mask (4 + t) && (s.tiles[t]?).any fun x => x.kernel.isSome) || s.tileJob t) ||
        (bitOf mask 3 && !s.media.streams.isEmpty) || (bitOf mask 1 && s.work.jobs.any Job.live)) then (s, .st stBusy)
    else if !on && bitOf mask 1 && s.bypassLimit then (s, .st stLimit)
    else
      let order := if on then fullOrder else fullOrder.reverse
      let s1 := (order.filter ds.contains).foldl (fun st d => if on then st.domainOn d else st.domainOff d) s
      (s1, if s1.domainsDone mask then .st stOK else .wait (.domains (BitVec.ofNat 20 mask)))
def execDomainPower (att ring : Nat) (s : State) : Host.Outcome State Fault Refusal := .next (domainPowerStep att ring s)

/-- Ends with OK the command just started that waits for no domain, then does what follows its reply. -/
def State.afterReply (s : State) (f : Nat → State → State) : State :=
  match s.host.running.find? fun c => c.wait == .domains 0 with
  | some c => f c.tenant (s.finish c stOK 0 0 0)
  | none => s

/-- SLEEP (R596) (DEDUCED, log entry 102). -/
def sleepStep (att ring : Nat) (s : State) : State :=
  (s.startCmd 0x0704 .inline att ring fun c s =>
    let n := c.tenant
    let held := s.work.jobs.any (fun j => j.tenant == n && j.live) || s.work.kernels.any (fun k => k.tenant == n) ||
      s.media.streams.any (fun x => x.tenant == n) || s.media.pipelines.any (fun p => p.tenant == n && p.st != .unconfigured) ||
      s.media.kvs.any (fun k => k.tenant == n)
    if !c.z 16 48 then (s, .st stBadParam)
    else if !s.holdsAll n || s.host.tenants.length ≠ 1 || held then (s, .st stBusy)
    else (s, .wait (.domains 0))).afterReply fun n st => st.enterSleep n
def execSleepCmd (att ring : Nat) (s : State) : Host.Outcome State Fault Refusal := .next (sleepStep att ring s)

/-- Whether a module ID lies in the torus. -/
def State.inMap (s : State) (m : Nat) : Bool := s.fab.dims.any fun d => inTorus d m

/-- WAKE (R598). -/
def wakeStep (att ring : Nat) (s : State) : State :=
  s.startCmd 0x0705 .inline att ring fun c s =>
    let m := c.f 16 2
    if 2 ^ 15 ≤ m || !c.z 18 46 then (s, .st stBadParam)
    else if s.fab.modId == some m then (s, .st stOK)
    else if !s.inMap m then (s, .st stMemberLost)
    else
      let r := s.send (ctlPkt 0x2E m 0 0 [])
      if r.2 then (r.1, .st stOK) else (s, .st stMemberLost)
def execWakeCmd (att ring : Nat) (s : State) : Host.Outcome State Fault Refusal := .next (wakeStep att ring s)

/-- The block that BLOCK_RESET names: a field that its target does not use counts as 0. -/
def blockOf (c : Cmd) : BlockReset :=
  let g := c.f 16 1
  { uid := c.uid, tenant := c.tenant, target := g, tile := if g ≤ 6 then c.f 17 1 else 0,
    index := if g = 2 || g = 3 || g = 6 || g = 7 then c.f 18 1 else 0, stage := 0, late := false, items := 0 }

/-- BLOCK_RESET: R610, R612, then the reset goes on as far as it can (R611) (DEDUCED, log entry 103). -/
def blockResetStep (att ring : Nat) (s : State) : State :=
  s.startCmd 0x0801 .inline att ring fun c s =>
    let b := blockOf c
    let g := b.target
    if !c.z 19 1 || !c.z 22 42 || 1000 < c.f 20 2 || !decide (1 ≤ g ∧ g ≤ 9) || 7 < b.tile || 15 < b.index ||
        ((g = 6 || g = 7) && 7 < b.index) then (s, .st stBadParam)
    else if (g ≤ 6 && !bitOf (s.tilesOf c.tenant) b.tile) || (g = 7 && b.index + 1 ≠ c.tenant) ||
        (g = 8 && !s.holdsAll c.tenant) then (s, .st stDenied)
    else if s.work.blockResets.any b.meets then (s, .st stBusy)
    else
      let s0 := s.blockHalt b
      if s0.blockIdle b && !(g = 1 && s.tileOn b.tile) then (s0.blockClear b, .done stOK 0 0 0)
      else
        let s1 : State := { s0 with work := { s0.work with blockResets := s0.work.blockResets ++ [b] } }
        (s1.blockOn b, .wait .blockReset)
def execBlockReset (att ring : Nat) (s : State) : Host.Outcome State Fault Refusal := .next (blockResetStep att ring s)

/-- BLOCK_IDLE_TIMEOUT: what is unfinished ends under the stop rule; BLOCK_IDLE_TIMEOUT is recorded (R611, R616). -/
def blockIdleTimeoutStep (uid : Nat) (s : State) : State :=
  match s.work.blockResets.find? fun b => b.uid == uid with
  | none => s
  | some b =>
    if b.stage ≠ 0 then s
    else
      let n := s.blockItems b
      let s1 := (s.blockStop b).eventPersist 0x0063 b.target n
      let s2 : State := { s1 with work := { s1.work with
        blockResets := modFirst (fun x => x.uid == uid) (fun x => { x with stage := 1, late := true, items := n }) s1.work.blockResets } }
      s2.settle.blocksOn
def execBlockIdleTimeout (uid : Nat) (s : State) : Host.Outcome State Fault Refusal := .next (blockIdleTimeoutStep uid s)

/-- MODULE_RESET (R613). -/
def moduleResetStep (att ring : Nat) (s : State) : State :=
  (s.startCmd 0x0802 .inline att ring fun c s =>
    let tgt := c.f 16 2
    if !c.z 18 6 || !c.z 32 32 then (s, .st stBadParam)
    else if !s.holdsAll c.tenant then (s, .st stDenied)
    else if 2 ^ 15 ≤ tgt || s.fab.modId == some tgt then (s, .wait (.domains 0))
    else if !s.inMap tgt then (s, .st stMemberLost)
    else
      let t := freeTag s.fab.remotes 16385 s.fab.nextTag
      let r := s.send (ctlPkt 0x2F tgt (BitVec.ofNat 64 (c.f 24 8)) 0 [])
      if r.2 then
        ({ r.1 with fab := { r.1.fab with
            nextTag := (t + 1) % 65536
            remotes := r.1.fab.remotes ++ [{ tag := t, dest := tgt, vc := 0, addr := 0, len := 0, what := .reset c.uid (BitVec.ofNat 64 (c.f 24 8)) }] } },
          .wait (.peerReset t))
      else (s, .st stMemberLost)).afterReply fun _ st => st.assertSource .firmware
def execModuleReset (att ring : Nat) (s : State) : Host.Outcome State Fault Refusal := .next (moduleResetStep att ring s)

/-- SCRUB_POLICY (R614) (DEDUCED, log entry 67). -/
def scrubPolicyStep (att ring : Nat) (s : State) : State :=
  s.startCmd 0x0803 .inline att ring fun c s =>
    let h := if c.f 18 2 = 0 then 24 else c.f 18 2
    if !c.z 17 1 || !c.z 20 44 || !decide (2 ≤ h ∧ h ≤ 168) then (s, .st stBadParam)
    else if !s.holdsMask c.tenant (c.f 16 1) then (s, .st stDenied)
    else ((maskList 8 (c.f 16 1)).foldl (fun st t => st.onMg t fun m => { m with nextHours := h }) s, .st stOK)
def execScrubPolicy (att ring : Nat) (s : State) : Host.Outcome State Fault Refusal := .next (scrubPolicyStep att ring s)

/-! ### Packets and contacts -/

/-- WAKE control packet: a module whose packets reach this one has trained with an equal digest (R597; 11 R364)
(DEDUCED, log entry 105). -/
def wakeControlPacketStep (s : State) : State :=
  match s.takeRx fun p => p.ty == 0x2E with
  | none => s
  | some (p, s1) => if !ctlFieldsOk p 0 0 || p.j ≠ 0 then s1 else s1.leaveSleep
def execWakeControlPacket (s : State) : Host.Outcome State Fault Refusal := .next (wakeControlPacketStep s)

/-- WAKE_N held low. -/
def wakeNStep (s : State) : State := s.leaveSleep
def execWakeN (s : State) : Host.Outcome State Fault Refusal := .next (wakeNStep s)

/-- RESET_REQ: answered before the PEER source asserts, or refused with TENANT_DENIED (R613; 11 R380)
(DEDUCED, log entry 38). -/
def resetReqStep (s : State) : State :=
  match s.takeRx fun p => p.ty == 0x2F with
  | none => s
  | some (p, s1) =>
    let rsp := fun (code : Nat) =>
      (s1.send { pktBlank with ty := 0x21, vc := 6, dest := p.src, tag := p.tag, code := code, j := p.j }).1
    if !ctlFieldsOk p 0 0 then s1
    else match s1.jobOfPkt p with
      | some j =>
        if j.members.contains p.src && (j.st == .running || j.st == .pausing || j.st == .paused || j.st == .failed) then
          (rsp stOK).assertSource .peer
        else rsp stDenied
      | none => rsp stDenied
def execResetReq (s : State) : Host.Outcome State Fault Refusal := .next (resetReqStep s)

/-! ### Supplies (R587 to R591) -/

/-- POWER_ON: V_AUX rises; a reset of reach A begins (R600, R609, R630). -/
def powerOnStep (s : State) : State :=
  if s.pow.auxGood then s
  else
    let s1 := s.railsUp 0
    { s1 with
      pow := { s1.pow with auxGood := true, auxHeld := false, domains := 1, sources := [.powerOn], sampled := [.powerOn],
                           episode := some true, cause := 1, reach := false }
      boot := { s1.boot with seedOk := true } }
def execPowerOn (s : State) : Host.Outcome State Fault Refusal := .next (powerOnStep s)

/-- AUX_MAIN_TIMER: POWER_ON releases, the main converters may start (DESIGN CHOICE, log entry 34). -/
def auxMainTimerStep (s : State) : State :=
  if !s.pow.auxGood || s.pow.auxHeld then s
  else
    let s1 := s.releaseSource .powerOn
    { s1 with pow := { s1.pow with auxHeld := true } }
def execAuxMainTimer (s : State) : Host.Outcome State Fault Refusal := .next (auxMainTimerStep s)

/-- MAIN_GOOD: above V_MAIN_OK, at least 45.6 V; domains that waited for it power up (R588). While MAIN_LOSS is asserted the
source waits for MAIN_STABLE (DESIGN CHOICE, log entry 34; DEDUCED, log entries 92, 100). -/
def mainGoodStep (mv : Nat) (s : State) : State :=
  if mv < 45600 || s.pow.powerFail || s.pow.sources.contains .mainLoss then s
  else State.powerUp { s with pow := { s.pow with mainGood := true } }
def execMainGood (mv : Nat) (s : State) : Host.Outcome State Fault Refusal := .next (mainGoodStep mv s)

/-- POWER_FAIL: issue stops, the reservoir takes no further write, ALERT_N, the record (R589). A voltage inside the range
stands for PWR_GOOD low, which is sampled from stage 2 (R615) (DEDUCED, log entry 100). -/
def powerFailStep (mv : Nat) (s : State) : State :=
  let inRange := decide (44400 ≤ mv ∧ mv ≤ 59600)
  if !s.pow.auxGood || !s.pow.mainGood || s.pow.powerFail || (inRange && s.pow.stage != 2) then s
  else
    State.eventPersist { s with pow := { s.pow with powerFail := true }, resv := { s.resv with resHold := true } } 0x0060 mv 0
def execPowerFail (mv : Nat) (s : State) : Host.Outcome State Fault Refusal := .next (powerFailStep mv s)

/-- HOLDUP_END: POWER_FAIL always ends in a reset of reach A (R589, R590). -/
def holdupEndStep (s : State) : State :=
  if !s.pow.powerFail then s
  else State.assertSource { s with pow := { s.pow with powerFail := false, mainGood := false } } .mainLoss
def execHoldupEnd (s : State) : Host.Outcome State Fault Refusal := .next (holdupEndStep s)

/-- MAIN_STABLE: MAIN_LOSS releases (R590). -/
def mainStableStep (s : State) : State :=
  if !s.pow.sources.contains .mainLoss then s
  else
    let s1 := s.releaseSource .mainLoss
    { s1 with pow := { s1.pow with mainGood := true } }
def execMainStable (s : State) : Host.Outcome State Fault Refusal := .next (mainStableStep s)

/-- AUX_FAIL: every domain powers down and D0 is lost: the cause register, the fault times, FABRIC_ORIGIN, CARRIER_CAP, the
seed (R591, R593, R601, R609; 18 R630; 19 R644). -/
def auxFailStep (s : State) : State :=
  if !s.pow.auxGood then s
  else
    let s1 := s.enterA.railsDown 0
    { s1 with
      tiles := s1.tiles.map fun x => { x with cores := x.cores.map fun c => { c with faultTimes := [] } }
      fab := { s1.fab with origin := 0, originValid := false }
      pow := { s1.pow with auxGood := false, auxHeld := false, powerFail := false, domains := 0, sources := [], sampled := [],
                           episode := none, cause := 1, reach := false }
      boot := { s1.boot with seedOk := false } }
def execAuxFail (s : State) : Host.Outcome State Fault Refusal := .next (auxFailStep s)

/-! ### Reset sources (R600) -/

/-- RESET_PIN. -/
def resetPinStep (low : Bool) (s : State) : State := if low then s.assertSource .resetPin else s.releaseSource .resetPin
def execResetPin (low : Bool) (s : State) : Host.Outcome State Fault Refusal := .next (resetPinStep low s)

/-- WATCHDOG. -/
def watchdogStep (s : State) : State :=
  if !s.pow.auxGood then s else (s.eventPersist 0x0062 0 0).assertSource .watchdog
def execWatchdog (s : State) : Host.Outcome State Fault Refusal := .next (watchdogStep s)

/-- THERMAL_TRIP: a sensor of tile `t` reads `temp` in 0.1 °C. THERM_TRIP_N is low while it is asserted and D0 is not in reset
(R615, R616). -/
def thermalTripStep (t temp : Nat) (s : State) : State :=
  if !s.pow.auxGood || 8 ≤ t || temp < 1150 || s.pow.sources.contains .thermalTrip then s
  else
    let s1 := (s.eventPersist 0x0061 t temp).assertSource .thermalTrip
    if s1.pow.episode = some true then s1 else { s1 with tel := { s1.tel with thermTripN := false } }
def execThermalTrip (t temp : Nat) (s : State) : Host.Outcome State Fault Refusal := .next (thermalTripStep t temp s)

/-- TRIP_HOLD_EXPIRY. -/
def tripHoldExpiryStep (s : State) : State :=
  let s1 := s.releaseSource .thermalTrip
  { s1 with tel := { s1.tel with thermTripN := true } }
def execTripHoldExpiry (s : State) : Host.Outcome State Fault Refusal := .next (tripHoldExpiryStep s)

/-! ### Release and self-test (R606, R607; 02 R50; 18 R620 to R623) -/

/-- The ageing guards at start-up, which finds the ledger readable or not (03 R112) (DEDUCED, log entry 97). -/
def State.startGuards (s : State) (ledger : Bool) : State :=
  { s with tel := { s.tel with ledgerOk := ledger }
           tiles := s.tiles.map fun x => { x with gov := { x.gov with guard := if ledger then x.gov.guardLedger else 30 } } }

/-- RESET_RELEASE: every source has released (those of 1 ms by themselves); the release sequence of the widest reach
(DESIGN CHOICE, log entry 34; DEDUCED, log entry 91). -/
def resetReleaseStep (slot : BitVec 6) (ledger : Bool) (s : State) : State :=
  match s.pow.episode with
  | none => s
  | some a =>
    if !s.pow.auxGood || !s.pow.sources.all Source.timed then s
    else
      let s1 : State := { s with
        pow := { s.pow with episode := none, sources := [], sampled := [] }
        clk := { s.clk with resetUs := s.clk.nowUs }
        resv := { s.resv with resHold := s.pow.powerFail } }
      if a then
        (State.bootChain { s1 with fab := { s1.fab with slotId := slot.toNat } }).startGuards ledger |>.powerUp
      else State.powerUp { s1 with pow := { s1.pow with selftest := s1.pow.selftest &&& 0x3FF } }
def execResetRelease (slot : BitVec 6) (ledger : Bool) (s : State) : Host.Outcome State Fault Refusal :=
  .next (resetReleaseStep slot ledger s)

/-- Failure bits that force FAILED: 7, 8, 9, 32 to 35, and 2 with 3 (DESIGN CHOICE, log entry 98). -/
def selftestFails (b : Nat) : Bool :=
  [7, 8, 9, 32, 33, 34, 35].any (bitOf b) || (bitOf b 2 && bitOf b 3)

/-- SELFTEST_COMPLETE: `bits` are what self-test found (bits 16 to 35) and the two findings of the boot chain that no object
decides (7 and 8). A memory group that is not ready has failed its initialisation. Fenced tiles, the router's loopback, READY
or FAILED, and a TRY copy becomes PREFERRED (R622, R623) (DESIGN CHOICE, log entry 34; DESIGN CHOICE, log entry 98). -/
def selftestCompleteStep (bits : BitVec 64) (s : State) : State :=
  if !(s.pow.bringUp = .boot ∨ s.pow.bringUp = .selftest) then s
  else
    let groups := ((List.range 8).filter fun t => !s.groupReady t).map fun t => 2 ^ (24 + t)
    let b := s.pow.selftest ||| (bits &&& 0xFFFFF0180) ||| BitVec.ofNat 64 groups.sum
    let n := b.toNat
    let s1 : State := { s with
      tiles := s.tiles.zipIdx.map fun x => if bitOf n (16 + x.2) || bitOf n (24 + x.2) then { x.1 with selfFence := true } else x.1
      fab := { s.fab with loopback := !bitOf n 32 }
      pow := { s.pow with selftest := b, bringUp := if selftestFails n then .failed else .ready } }
    if selftestFails n then s1
    else [1, 2, 3].foldl State.keepTry s1
def execSelftestComplete (bits : BitVec 64) (s : State) : Host.Outcome State Fault Refusal := .next (selftestCompleteStep bits s)

end Sys2Proof.Machine
end

