-- ==== Sys2Proof/Machine/Resil.lean ====
section
/-! DEFINITION. Guard groups, checkpoints and restore (16): the commands GUARD_GROUP_SET, CKPT_TAKE, CKPT_POLICY and
CKPT_RESTORE; CKPT_COMMIT, CKPT_INTERVAL_RECOMPUTE and STEP_TIMEOUT. -/

namespace Sys2Proof.Machine

/-- GUARD_GROUP_SET (R559): carried to every member; it takes effect at the close of the step after the open one. What RESULT0
and RESULT1 hold for K = 0, which has no segment size, is open (DESIGN CHOICE, log entry 14). -/
def guardGroupSetStep (att ring : Nat) (s : State) : State :=
  s.startCmd 0x0604 .inline att ring fun c s =>
    let k := c.f 18 1
    if !c.z 19 45 || k = 1 || 16 < k then (s, .st stBadParam)
    else s.namedJob c (c.f 16 2) fun j =>
      if !j.live then (s, .st stBadParam)
      else if j.st == .stopping || j.st == .starting then (s, .st stBusy)
      else if !s.guardOk j k || (k != 0 && !s.trains j) then (s, .st stBadParam)
      else
        let s1 := (s.control j 4 k j.pauseStep).onJob j.handle fun x => { x with guardNext := some (k, j.pauseStep) }
        let z := s.segBytes j k
        if k ≠ 0 then (s1, .done stOK z (4 * z) 0)
        else
          let a := s1.draw
          let b := a.2.draw
          (b.2, .done stOK (Config.freeWord a.1).toNat (Config.freeWord b.1).toNat 0)
def execGuardGroupSet (att ring : Nat) (s : State) : Host.Outcome State Fault Refusal := .next (guardGroupSetStep att ring s)

/-- CKPT_TAKE (R566, R567). A job without a training state, a TIERS of zero, and a paused job that has closed no step have
nothing to cover (DEDUCED, log entry 24). -/
def ckptTakeStep (att ring : Nat) (s : State) : State :=
  s.startCmd 0x0601 .inline att ring fun c s =>
    let tiers := c.f 18 1
    if !c.z 19 45 || 4 ≤ tiers || tiers = 0 then (s, .st stBadParam)
    else s.namedJob c (c.f 16 2) fun j =>
      if !j.live || !s.trains j || (j.st == .paused && j.lastClosed.isNone) then (s, .st stBadParam)
      else if bitOf tiers 0 && !(s.tenant? c.tenant).any (fun t => t.tiles == 0xFF) then (s, .st stDenied)
      else if j.st == .stopping || j.st == .starting || j.ckpt.isSome || j.ckptAt.isSome then (s, .st stBusy)
      else match j.st, j.lastClosed with
        | .paused, some k => ((s.control j 5 tiers atOnce).startCkpt j.handle k tiers, .wait (.ckptTake j.handle))
        | _, _ =>
          ((s.control j 5 tiers j.pauseStep).onJob j.handle fun x => { x with ckptAt := some (tiers, j.pauseStep) },
            .wait (.ckptTake j.handle))
def execCkptTake (att ring : Nat) (s : State) : Host.Outcome State Fault Refusal := .next (ckptTakeStep att ring s)

/-- Bytes of a commit record (R568). -/
def State.commitBytes (s : State) (j : Job) (step seqNo : Nat) (image : Bytes) : Bytes :=
  toLE 4 0x434B5031 ++ toLE 4 j.rank ++ toLE 8 j.jobId.toNat ++ toLE 8 step ++ toLE 8 image.length ++ toLE 8 seqNo ++
    s.planLayout (s.imgOf j) ++ shake256 image 32 ++ zeros 24

/-- A tier of a checkpoint has ended: its event, and the reply once every tier has (R566, R570, R585); a checkpoint that
became due meanwhile begins (DEDUCED, log entry 90). -/
def State.tierEnd (s : State) (h tier status seqNo : Nat) : State :=
  match s.job? h with
  | none => s
  | some j =>
    match j.ckpt with
    | none => s
    | some c =>
      let ok := status == stOK
      let s1 := if ok then s.event 0x0051 0xFF 0 (c.step % 2 ^ 32) (if tier = 0 then c.slot else 256) 0
        else s.event 0x0052 0xFF 0 (c.step % 2 ^ 32) status 0
      let d : CkptRun := { c with left := c.left - 2 ^ tier, status := if c.status = stOK then status else c.status,
                                  good := c.good + if ok then 1 else 0, slotSeq := if ok && (tier = 0 || c.slotSeq = 0) then seqNo else c.slotSeq }
      if d.left ≠ 0 then s1.onJob h fun x => { x with ckpt := some d }
      else
        let s2 := (s1.finishWait (.ckptTake h) d.status d.step d.slot d.slotSeq).onJob h fun x =>
          { x with
            ckpt := none, costOpen := if d.good = 0 || x.openStep.isNone then none else some d.costUs
            costUs := if d.good = 0 || x.openStep.isSome then x.costUs else some d.costUs.toNat }
        match j.ckptAt with
        | some (t, k) =>
          if j.lastClosed.any fun l => decide (k ≤ l) then (s2.onJob h fun x => { x with ckptAt := none }).startCkpt h k t else s2
        | none => s2

/-- The next SLOT_SEQ of the module. -/
def State.nextSlotSeq (s : State) : Nat × State :=
  (s.resv.slotSeq + 1, { s with resv := { s.resv with slotSeq := s.resv.slotSeq + 1 } })
/-- A status other than OK that the spec does not name (R570; DESIGN CHOICE, log entry 14). -/
def State.failStatus (s : State) : State × Nat := let d := s.draw; (d.2, 1 + (Config.freeWord d.1).toNat % 20)

/-- The reservoir tier commits, or fails (R568; 10 R345). -/
def State.commitReservoir (s : State) (h : Nat) (j : Job) (c : CkptRun) (image : Bytes) : State :=
  if s.resv.sparePct = 0 then (s.setSlot c.slot CkptSlot.empty).tierEnd h 0 stNoResource 0
  else
    let q := s.nextSlotSeq
    let n := image.length + 4096
    let s1 := q.2.setSlot c.slot { commit := q.2.commitBytes j c.step q.1 image, image := image, st := 2 }
    let s2 : State := { s1 with resv := { s1.resv with hostBytes := s1.resv.hostBytes + n, nandBytes := s1.resv.nandBytes + n } }
    s2.tierEnd h 0 stOK q.1

/-- The shared tier commits through the attachment of the job's policy, or fails (R570). -/
def State.commitShared (s : State) (h : Nat) (j : Job) (c : CkptRun) (image : Bytes) (writesOk : Bool) : State :=
  let p := j.policy
  if p.sharedBytes = 0 || !s.attServes p.sharedAtt || !writesOk then
    let f := s.failStatus
    f.1.tierEnd h 1 f.2 0
  else
    let q := s.nextSlotSeq
    let a := p.sharedAddr + p.sharedBytes * slotToWrite (s.sharedSlot p.sharedAtt p.sharedAddr) (s.sharedSlot p.sharedAtt (p.sharedAddr + p.sharedBytes))
    let rec_ := q.2.commitBytes j c.step q.1 image
    let slot : CkptSlot := { commit := rec_, image := image, st := 2 }
    let s1 : State := { q.2 with
      resv := { q.2.resv with shared := (q.2.resv.shared.filter fun e => !(e.1 == p.sharedAtt && e.2.1 == a)) ++ [(p.sharedAtt, a, slot)] }
      host := { q.2.host with pcieWrites := q.2.host.pcieWrites ++ [(p.sharedAtt, a + 4096, image), (p.sharedAtt, a, rec_)] } }
    s1.tierEnd h 1 stOK q.1

/-- CKPT_COMMIT: the copy of a closed step's image to a tier finishes (R565, R568, R570, R571). While POWER_FAIL holds the
reservoir, nothing commits there (R569; 10 R347). -/
def ckptCommitStep (job tier : Nat) (writesOk : Bool) (s : State) : State :=
  match s.job? job with
  | none => s
  | some j =>
    match j.ckpt with
    | none => s
    | some c =>
      if 2 ≤ tier || !bitOf c.left tier || (tier = 0 && s.resv.resHold) then s
      else
        let r := s.load 5 (s.bufAt j (c.step % 2)) (s.imageBytes (s.imgOf j))
        match r.2 with
        | none => (if tier = 0 then r.1.setSlot c.slot CkptSlot.empty else r.1).tierEnd job tier stUncorrectable 0
        | some image => if tier = 0 then r.1.commitReservoir job j c image else r.1.commitShared job j c image writesOk
def execCkptCommit (job tier : Nat) (writesOk : Bool) (s : State) : Host.Outcome State Fault Refusal :=
  .next (ckptCommitStep job tier writesOk s)


/-- The interval of R575 in microseconds (DESIGN CHOICE, log entry 20). -/
def Job.interval (j : Job) (now : Nat) : Nat :=
  let n := j.members.length
  let hours := 3600000000 * j.policy.fleetHours
  let div := n * (j.policy.fleetFailures + j.losses)
  let m := if div = 0 then hours / n else (hours + n * (now - j.startUs)) / div
  isqrt (2 * j.costUs.getD 10000000 * m)

/-- CKPT_POLICY (R572). The interval is computed with it (DESIGN CHOICE, log entry 20). -/
def ckptPolicyStep (att ring : Nat) (s : State) : State :=
  s.startCmd 0x0603 .inline att ring fun c s =>
    let z := fun (v d : Nat) => if v = 0 then d else v
    if 1 < c.f 18 1 || !c.z 22 2 || !c.z 45 3 || 4 ≤ c.f 44 1 then (s, .st stBadParam)
    else s.namedJob c (c.f 16 2) fun j =>
      if !j.live || (c.f 56 8 != 0 && decide (c.f 56 8 < s.imageBytes (s.imgOf j) + 4096)) then (s, .st stBadParam)
      else if j.st == .stopping then (s, .st stBusy)
      else
        let p : CkptPolicy :=
          { auto := c.f 18 1 == 0, sharedEvery := c.f 19 1, threshold := z (c.f 20 2) 16384, minS := z (c.f 24 4) 60,
            maxS := z (c.f 28 4) 21600, fleetFailures := c.f 32 4, fleetHours := z (c.f 36 4) 4380000,
            stepTimeoutS := c.f 40 4, sharedAtt := c.f 44 1, sharedAddr := c.f 48 8, sharedBytes := c.f 56 8 }
        (s.onJob j.handle fun x => { x with policy := p, intervalUs := { x with policy := p }.interval s.clk.nowUs }, .st stOK)
def execCkptPolicy (att ring : Nat) (s : State) : Host.Outcome State Fault Refusal := .next (ckptPolicyStep att ring s)

/-- CKPT_INTERVAL_RECOMPUTE: rank 0 computes the interval again (R575). -/
def ckptIntervalRecomputeStep (job : Nat) (s : State) : State :=
  match s.job? job with
  | none => s
  | some j => if j.rank = 0 then s.onJob job fun x => { x with intervalUs := j.interval s.clk.nowUs } else s
def execCkptIntervalRecompute (job : Nat) (s : State) : Host.Outcome State Fault Refusal :=
  .next (ckptIntervalRecomputeStep job s)

/-- STEP_TIMEOUT: a job whose step has not closed in STEP_TIMEOUT_S fails with TIMEOUT (R576) (DEDUCED, log entry 107). -/
def stepTimeoutStep (job : Nat) (s : State) : State :=
  match s.job? job with
  | none => s
  | some j =>
    if j.policy.stepTimeoutS ≠ 0 && decide (j.openUs + 1000000 * j.policy.stepTimeoutS ≤ s.clk.nowUs) && (j.st == .running || j.st == .pausing) then (s.failJob job stTimeout true).settle else s
def execStepTimeout (job : Nat) (s : State) : Host.Outcome State Fault Refusal := .next (stepTimeoutStep job s)

/-- Checks of R578, in which no other action is taken. -/
def State.restoreStatus (s : State) (j : Job) (ranks : Nat) (old : List Nat) : Nat :=
  if ranks ≠ j.members.length || old.zipIdx.any fun x => j.members.contains x.1 && j.members[x.2]? != some x.1 then stBadParam
  else if j.members.any fun m => !s.alive m then stMemberLost
  else stOK

/-- CKPT_RESTORE (R578 to R583): this member's holdings are announced; the rest goes on as packets come
(DEDUCED, log entry 43). -/
def ckptRestoreStep (att ring : Nat) (s : State) : State :=
  State.settle <| s.startCmd 0x0602 (.block 64) att ring fun c s =>
    let n := c.f 20 4
    if 3 < c.f 18 1 || 3 < c.f 19 1 || !c.z 56 24 then (s, .st stBadParam)
    else s.namedJob c (c.f 16 2) fun j =>
      if j.st == .stopping || j.restore.isSome then (s, .st stBusy)
      else if j.st != .paused || j.lastClosed.isSome || n ≠ j.members.length then (s, .st stBadParam)
      else if !(s.tenant? c.tenant).any fun t => inPart t false false (c.f 40 8) (2 * n) then (s, .st stDenied)
      else
        let rd := s.cmdRead (c.f 40 8) (2 * n)
        if rd.2 ≠ stOK then (rd.1, .st rd.2)
        else
          let old := rd.1.idsAt (c.f 40 8) n
          let st := rd.1.restoreStatus j n old
          if st ≠ stOK then (rd.1, .st st)
          else
            let oldJob := BitVec.ofNat 64 (c.f 24 8)
            let r : RestoreRun :=
              { source := c.f 18 1, oldJob := oldJob, step := stepOf (c.f 32 8), oldMembers := old, sharedAtt := c.f 19 1,
                sharedAddr := c.f 48 8, holdings := j.early.filter fun e => e.2.oldJob == oldJob, done := [], chosen := none,
                rebuild := none, stage := 0, groups := [], zeroed := false, resync := false, position := 0 }
            let own := rd.1.ownHoldings j r
            let all := (r.holdings.filter fun e => e.1 != j.rank) ++ [(j.rank, own)]
            let s1 := rd.1.onJob j.handle fun x => { x with restore := some { r with holdings := all }, early := [] }
            (s1.tellJob j 0x2D j.rank own.bytes, .wait (.ckptRestore j.handle))
def execCkptRestore (att ring : Nat) (s : State) : Host.Outcome State Fault Refusal := .next (ckptRestoreStep att ring s)

end Sys2Proof.Machine
end

