-- ==== Sys2Proof/Machine/Sideband.lean ====
section
/-! DEFINITION. Registers with no row of their own (02 BAR0 registers; 01 R10 to R12) and the I3C sideband (19 R641 to R646):
the dynamic address, CARRIER_CAP, FABRIC_ORIGIN, WAKE and the recovery of stage 1. -/

namespace Sys2Proof.Machine

/-- Whether the I3C target answers: from stage 1, or in recovery (R641). -/
def State.i3cUp (s : State) : Bool := s.pow.auxGood && s.pow.stage != 0
/-- Whether the recovery registers act (R646). -/
def State.recovering (s : State) : Bool := s.i3cUp && s.pow.stage == 3

/-! ### Reads (00 R8, R11) -/

/-- RING_STATUS.RUNNING: enabled, and not stopped at a slot with OWN = 0 (DESIGN CHOICE, log entry 116). -/
def Ring.consuming (r : Ring) : Bool := r.enable && !r.stalled

/-- What a read of a ring register at offset `o` returns: reserved offsets and bits read zero (02 ring register tables). -/
def Ring.readReg (r : Ring) (o : Nat) : Nat :=
  let bit := fun (b : Bool) (i : Nat) => if b then 2 ^ i else 0
  if o = 0x00 then r.base.toNat
  else if o = 0x08 then r.replyBase.toNat
  else if o = 0x10 then bit r.enable 0 + r.log2.toNat * 2
  else if o = 0x18 then r.tail.toNat
  else if o = 0x20 then r.head.toNat
  else if o = 0x28 then bit r.badTail 0 + bit r.ownStall 1 + bit r.baseDenied 2 + bit r.consuming 3
  else 0

/-- What a read of an I3C register returns (19 I3C register tables): WO fields, reserved fields and reserved addresses read
zero, and so do the recovery registers while ENABLED is 0 (R642, R643, R646). -/
def State.readI3c (s : State) (a : Nat) : Nat :=
  let bit := fun (b : Bool) (i : Nat) => if b then 2 ^ i else 0
  if !s.i3cUp then 0
  else if a = 0x0004 then
    (if s.pow.stage = 2 then bringUpCode s.pow.bringUp else 0) + s.pow.stage % 4 * 2 ^ 8 + bit s.pow.asleep 10 +
      bit s.fab.modId.isSome 11 + s.fab.modId.getD 0 % 2 ^ 15 * 2 ^ 16
  else if a = 0x0008 then s.pow.selftest.toNat % 2 ^ 32
  else if a = 0x000C then s.pow.selftest.toNat / 2 ^ 32
  else if a = 0x0010 then s.pow.cause % 2 ^ 8 + bit s.pow.reach 8
  else if a = 0x0014 then s.tel.carrierCap % 2 ^ 13 + bit s.tel.capRejected 31
  else if a = 0x0018 then s.fab.origin.toNat + bit s.fab.originValid 15
  else if a = 0x0020 then s.tel.sbTelem.toNat
  else if !s.recovering then 0
  else if a = 0x0100 then
    bit s.boot.recStart 0 + bit s.boot.recClear 1 + s.boot.rstate % 4 * 2 ^ 2 + s.boot.recReason % 16 * 2 ^ 8 + 2 ^ 12
  else if a = 0x0104 then s.boot.recOffset.toNat
  else 0

/-- What a read of a register returns, by its access code (00 R8, R11). A read that has a row of its own, DOORBELL or
ATT_FENCE, acts as that row says besides; every other read changes nothing. -/
def State.readRegister (s : State) (bus : Bus) (offset : Nat) : BitVec 64 :=
  match bus with
  | .i3c => BitVec.ofNat 64 (s.readI3c offset)
  | .bar0 a =>
    match s.host.atts[a]? with
    | none => 0
    | some x =>
      if !s.attUp a then 0
      else if offset = 0x00 then
        BitVec.ofNat 64 (a % 4 + s.boot.split % 4 * 2 ^ 2 + x.tenant % 2 ^ 8 * 2 ^ 16 +
          ((s.boundTo a).map (·.tiles.toNat)).getD 0 * 2 ^ 24)
      else if offset = 0x08 then (x.fenceCount + 1).setWidth 64
      else if offset = 0x10 then BitVec.ofNat 64 ((if x.oob then 1 else 0) + if x.orphanWarn then 2 else 0)
      else if 0x1000 ≤ offset ∧ offset < 0x1800 then
        BitVec.ofNat 64 (((x.rings[(offset - 0x1000) / 0x100]?).map fun r => r.readReg ((offset - 0x1000) % 0x100)).getD 0)
      else if 0x8000 ≤ offset ∧ offset + 8 ≤ 0x8600 ∧ offset % 8 = 0 then
        BitVec.ofNat 64 (leNat (sgets 0 s.host.hub (hubKey a (offset - 0x8000)) 8))
      else 0

/-! ### Writes -/

/-- A write to a ring register at offset `o`: the bases are RW above bit 11, RING_STATUS is W1C. -/
def Ring.writeReg (r : Ring) (o : Nat) (v : BitVec 64) : Ring :=
  let w := v.toNat
  if o = 0x00 then { r with base := v &&& ~~~0xFFF }
  else if o = 0x08 then { r with replyBase := v &&& ~~~0xFFF }
  else if o = 0x28 then
    { r with badTail := r.badTail && !bitOf w 0, ownStall := r.ownStall && !bitOf w 1, baseDenied := r.baseDenied && !bitOf w 2 }
  else r

/-- REGISTER_WRITE: the bases and RING_STATUS of a ring, ATT_STATUS, the bring-up window, RECOVERY_OFFSET. Read-only registers
and reserved offsets ignore it (01 R8, R11). A write to a ring in use takes effect at once (DESIGN CHOICE, log entry 115). -/
def registerWriteStep (bus : Bus) (offset : Nat) (value : BitVec 64) (s : State) : State :=
  match bus with
  | .bar0 a =>
    let w := value.toNat
    if !s.attUp a then s
    else if offset = 0x10 then
      s.onAtt a fun x => { x with oob := x.oob && !bitOf w 0, orphanWarn := x.orphanWarn && !bitOf w 1 }
    else if 0x1000 ≤ offset ∧ offset < 0x1800 then
      s.onRing a ((offset - 0x1000) / 0x100) fun r => r.writeReg ((offset - 0x1000) % 0x100) value
    else if 0x8000 ≤ offset ∧ offset + 8 ≤ 0x8600 ∧ offset % 8 = 0 then
      { s with host := { s.host with hub := sput 0 s.host.hub (hubKey a (offset - 0x8000)) (toLE 8 w) } }
    else s
  | .i3c =>
    if s.recovering && offset = 0x0104 then
      { s with boot := { s.boot with recOffset := BitVec.ofNat 32 value.toNat } }
    else s
def execRegisterWrite (bus : Bus) (offset : Nat) (value : BitVec 64) (s : State) : Host.Outcome State Fault Refusal :=
  .next (registerWriteStep bus offset value s)

/-- I3C_DYNAMIC_ADDRESS: SETDASA or ENTDAA. -/
def i3cDynamicAddressStep (addr : BitVec 7) (s : State) : State :=
  if s.i3cUp then { s with boot := { s.boot with dynAddr := some addr } } else s
def execI3cDynamicAddress (addr : BitVec 7) (s : State) : Host.Outcome State Fault Refusal := .next (i3cDynamicAddressStep addr s)

/-- CARRIER_CAP: a value out of range is ignored whole and sets REJECTED; else REJECTED is W1C (DEDUCED, log entry 101). -/
def carrierCapStep (value : BitVec 32) (s : State) : State :=
  let w := value.toNat % 2 ^ 13
  if !s.i3cUp then s
  else if 600 ≤ w ∧ w ≤ 4000 then
    { s with tel := { s.tel with carrierCap := w, capRejected := s.tel.capRejected && !bitOf value.toNat 31 } }
  else { s with tel := { s.tel with capRejected := true } }
def execCarrierCap (value : BitVec 32) (s : State) : Host.Outcome State Fault Refusal := .next (carrierCapStep value s)

/-- FABRIC_ORIGIN: kept, and the module ID is fixed when it can be (11 R350; R645). -/
def fabricOriginStep (value : BitVec 32) (s : State) : State :=
  if !s.i3cUp then s
  else
    State.fixId { s with fab := { s.fab with origin := BitVec.ofNat 15 value.toNat, originValid := bitOf value.toNat 15 } }
def execFabricOrigin (value : BitVec 32) (s : State) : Host.Outcome State Fault Refusal := .next (fabricOriginStep value s)

/-- SB_COMMAND WAKE. -/
def sbWakeStep (s : State) : State := if s.i3cUp then s.leaveSleep else s
def execSbWake (s : State) : Host.Outcome State Fault Refusal := .next (sbWakeStep s)

/-! ### Recovery (R646) -/

/-- Bytes of the recovery buffer. -/
abbrev recoveryBytes : Nat := 16785408

/-- RECOVERY_DATA: four bytes at RECOVERY_OFFSET. -/
def recoveryDataStep (value : BitVec 32) (s : State) : State :=
  let o := s.boot.recOffset.toNat
  if !s.recovering || s.boot.rstate = 1 || recoveryBytes ≤ o then s
  else
    { s with boot := { s.boot with
        recBuf := sput 0 s.boot.recBuf o ((toLE 4 value.toNat).take (recoveryBytes - o)), recOffset := s.boot.recOffset + 4 } }
def execRecoveryData (value : BitVec 32) (s : State) : Host.Outcome State Fault Refusal := .next (recoveryDataStep value s)

/-- The module takes the CLEAR and START bits that are set, CLEAR first, unless a verification is in progress; a bit that it
takes reads 0 (19 RECOVERY_CTRL; DEDUCED, log entry 106). -/
def State.takeRecovery (s : State) : State :=
  if !s.recovering || s.boot.rstate = 1 then s
  else
    let b := if s.boot.recClear then { s.boot with recBuf := [], rstate := 0, recReason := 0, recClear := false } else s.boot
    { s with boot := if b.recStart then { b with rstate := 1, recStart := false } else b }

/-- RECOVERY_CLEAR: a write of 1 to CLEAR. The module takes the bit at once, but not while it verifies the buffer: the bit
then stays 1 (00 R11, R13; DEDUCED, log entry 106). -/
def recoveryClearStep (s : State) : State :=
  if s.recovering then State.takeRecovery { s with boot := { s.boot with recClear := true } } else s
def execRecoveryClear (s : State) : Host.Outcome State Fault Refusal := .next (recoveryClearStep s)

/-- RECOVERY_START: a write of 1 to START. The module takes the bit and verification begins; one that is written while the
START before it is still being carried out leaves the bit at 1 (00 R11, R13; DEDUCED, log entry 106). -/
def recoveryStartStep (s : State) : State :=
  if s.recovering then State.takeRecovery { s with boot := { s.boot with recStart := true } } else s
def execRecoveryStart (s : State) : Host.Outcome State Fault Refusal := .next (recoveryStartStep s)

/-- The object in the recovery buffer: its header and BODY_BYTES of body, at most what the buffer holds. -/
def State.recoveryObj (s : State) : Bytes :=
  let n := leNat (sgets 0 s.boot.recBuf 16 8)
  sgets 0 s.boot.recBuf 0 (min recoveryBytes (objHeader + n))

/-- RECOVERY_VERIFIED: stage-1 copy 0 is written and the boot chain goes on at its stage-1 step, or it has failed. -/
def recoveryVerifiedStep (s : State) : State :=
  if !s.recovering || s.boot.rstate ≠ 1 then s
  else
    let b := s.recoveryObj
    let r := s.verify 1 b
    if r ≠ 0 then { s with boot := { s.boot with rstate := 3, recReason := r } }
    else
      State.powerUp (State.bootStages <| State.resWrote (n := b.length)
        { s with boot := { s.boot with stage1 := s.boot.stage1.setObj 0 b, rstate := 2, recReason := 0,
                                       recStart := false, recClear := false }
                 pow := { s.pow with selftest := s.pow.selftest &&& ~~~3 } })
def execRecoveryVerified (s : State) : Host.Outcome State Fault Refusal := .next (recoveryVerifiedStep s)

end Sys2Proof.Machine
end

