-- ==== Sys2Proof/Machine/Spillway.lean ====
section
/-! DEFINITION. The spillway engine (09): the coding of rows, streams, SAVE, RESTORE, ROUNDTRIP and the completion of a
tensor descriptor. -/

namespace Sys2Proof.Machine

/-! ### Fields (09 R293) -/

/-- Fields of a tensor descriptor. -/
structure TDesc where
  op : Nat
  fmt : Nat
  qfmt : Nat
  bounded : Bool
  rmode : Nat
  dropOk : Bool
  tensorId : Nat
  key : Nat
  frames : Nat
  rows : Nat
  cols : Nat
  src : Nat
  srcPitch : Nat
  dstPitch : Nat
  srcFrame : Nat
  dst : Nat
  dstFrame : Nat
  stream : Nat
  capacity : Nat
  aux : Nat
  auxPitch : Nat
  bound : BitVec 32
  report : Nat
  f0 : Nat
  fCnt : Nat
  r0 : Nat
  rCnt : Nat
  deriving DecidableEq, Repr

/-- Fields of 128 descriptor bytes. -/
def tdescOf (b : Bytes) : TDesc :=
  let m := fld b 2 1
  { op := fld b 0 1, fmt := fld b 1 1 % 8, qfmt := bits (fld b 1 1) 6 4, bounded := bitOf m 0, rmode := bits m 2 1,
    dropOk := bitOf m 3, tensorId := fld b 8 4, key := fld b 12 2, frames := fld b 14 2, rows := fld b 16 4,
    cols := fld b 20 4, src := fld b 24 8, srcPitch := fld b 32 4, dstPitch := fld b 36 4, srcFrame := fld b 40 8,
    dst := fld b 48 8, dstFrame := fld b 56 8, stream := fld b 64 8, capacity := fld b 72 8, aux := fld b 80 8,
    auxPitch := fld b 88 4, bound := BitVec.ofNat 32 (fld b 92 4), report := fld b 104 8, f0 := fld b 104 2,
    fCnt := fld b 106 2, r0 := fld b 108 4, rCnt := fld b 112 4 }

/-- Element format of the tensor, and the bounded target. -/
def TDesc.f (d : TDesc) : Fmt := (fmtOf d.fmt).getD .h32
def TDesc.q (d : TDesc) : Fmt := if d.qfmt = 0 then .s4 else .s8x
/-- Bytes of a row of elements. -/
def TDesc.rowBytes (d : TDesc) : Nat := elemBytes d.f d.cols
/-- Whether the stream or plane of a lossless block format carries scales. -/
def TDesc.scaled (d : TDesc) : Bool := !d.bounded && d.f.isBlock
/-- Scale bytes of a row. -/
def TDesc.scaleBytes (d : TDesc) : Nat := if d.scaled then d.cols / 32 else 0
/-- Number of rows of all frames. -/
def TDesc.count (d : TDesc) : Nat := d.frames * d.rows

/-- Step 1 of R294. -/
def tdescOk (b : Bytes) : Bool :=
  let d := tdescOf b
  let fm := fld b 1 1
  let m := fld b 2 1
  let save := d.op == 1
  let rest := d.op == 2
  let blkPlane := !d.bounded && decide (d.fmt ≤ 2) && d.op != 3
  decide (1 ≤ d.op ∧ d.op ≤ 3) && decide (d.fmt ≤ 4) && !bitOf fm 3 && !bitOf fm 7 && decide (m < 16) &&
  (if d.bounded then d.qfmt ≤ 1 && d.rmode ≤ 1 && (d.fmt == 3 || d.fmt == 4) && d.key == 1 && d.cols % 32 == 0 &&
      decide (d.bound.toNat < 0x7F800000)
   else d.qfmt == 0 && d.rmode == 0 && d.bound == 0 && d.op != 3 && (decide (3 ≤ d.fmt) || d.cols % 32 == 0)) &&
  (!d.dropOk || save) && zeroAt b 3 1 && zeroAt b 7 1 && decide (fld b 5 1 < 2) &&
  decide (1 ≤ d.key) && decide (1 ≤ d.frames) && decide (1 ≤ d.rows ∧ d.rows ≤ 2 ^ 24) && decide (d.count ≤ 2 ^ 24) &&
  decide (1 ≤ d.cols ∧ d.cols ≤ 65536) && d.srcPitch % 64 == 0 && d.dstPitch % 64 == 0 &&
  (!rest || (d.src == 0 && d.srcPitch == 0 && d.srcFrame == 0)) &&
  (!save || (d.dst == 0 && d.dstPitch == 0 && d.dstFrame == 0)) &&
  (if d.op = 3 then d.stream == 0 else d.stream % 64 == 0) &&
  (if save then decide (d.capacity ≤ 2 ^ 36) else d.capacity == 0) &&
  (blkPlane || (d.aux == 0 && d.auxPitch == 0)) &&
  (if save then d.report % 64 == 0 && zeroAt b 112 8
   else if rest then decide (1 ≤ d.fCnt) && decide (1 ≤ d.rCnt) && zeroAt b 116 4
   else zeroAt b 104 16)

/-! ### The stream (09 R303) -/

/-- Round up to a multiple of `k`. -/
def alignUp (n k : Nat) : Nat := ceilDiv n k * k
/-- Offset of the scale area, and the fixed part. -/
def TDesc.scaleOff (d : TDesc) : Nat := alignUp (64 + 4 * d.count) 64
def TDesc.fixed (d : TDesc) : Nat := alignUp (d.scaleOff + d.count * d.scaleBytes) 64
/-- RAW_BYTES. -/
def TDesc.raw (d : TDesc) : Nat := d.count * (d.rowBytes + d.scaleBytes)

/-- A stream header (R303). -/
def streamHeader (d : TDesc) (state step bytes : Nat) (maxErr : BitVec 32) : Bytes :=
  toLE 4 0x53504C31 ++ toLE 1 state ++ toLE 1 (d.fmt + 16 * d.qfmt) ++ toLE 1 (if d.bounded then 1 else 0) ++ zeros 1 ++
    toLE 4 d.tensorId ++ toLE 2 d.key ++ toLE 2 d.frames ++ toLE 4 d.rows ++ toLE 4 d.cols ++ toLE 8 step ++
    toLE 8 bytes ++ toLE 8 d.raw ++ toLE 4 maxErr.toNat ++ zeros 12

/-- R305: whether a header is one of this descriptor's stream. -/
def headerOk (d : TDesc) (step : Nat) (h : Bytes) : Bool :=
  fld h 0 4 == 0x53504C31 && (fld h 4 1 == 2 || fld h 4 1 == 3) && fld h 24 8 == step &&
  fld h 5 1 == d.fmt + 16 * d.qfmt && bitOf (fld h 6 1) 0 == d.bounded && fld h 8 4 == d.tensorId && fld h 12 2 == d.key &&
  fld h 14 2 == d.frames && fld h 16 4 == d.rows && fld h 20 4 == d.cols

/-! ### Lossless rows (09 R295 to R297) -/

/-- Widths of the exponent and sign-mantissa planes (R295). -/
def planeWidths (f : Fmt) : Nat × Nat := match f with
  | .s4 => (2, 2) | .s8x => (4, 4) | .s8r => (5, 3) | .s16 => (8, 8) | _ => (8, 24)
/-- The two plane values of a code (R295). -/
def planesOf (f : Fmt) (c : Nat) : Nat × Nat :=
  let w := planeWidths f
  (c / 2 ^ (w.2 - 1) % 2 ^ w.1, c / 2 ^ (w.1 + w.2 - 1) * 2 ^ (w.2 - 1) + c % 2 ^ (w.2 - 1))
/-- The code of two plane values. -/
def codeOfPlanes (f : Fmt) (e m : Nat) : Nat :=
  let w := planeWidths f
  m / 2 ^ (w.2 - 1) * 2 ^ (w.1 + w.2 - 1) + e * 2 ^ (w.2 - 1) + m % 2 ^ (w.2 - 1)

/-- `n` bits of a number, least significant first. -/
def emitBits (v n : Nat) : List Bool := (List.range n).map (bitOf v)
/-- The number that bits spell, least significant first. -/
def bitsNat (l : List Bool) : Nat := l.foldr (fun b a => 2 * a + if b then 1 else 0) 0
/-- Bits of one number: 0 for 0. -/
def bitLen (n : Nat) : Nat := if n = 0 then 0 else Nat.log2 n + 1

/-- One group of a plane of width `pw` (R296). -/
def codeGroup (pw : Nat) (v : List Nat) : List Bool :=
  let lo := v.foldl min (v.headD 0)
  let hi := v.foldl max 0
  let w := bitLen (hi - lo)
  if pw + v.length * w < v.length * pw then emitBits w 5 ++ (emitBits lo pw ++ v.flatMap fun x => emitBits (x - lo) w)
  else emitBits 31 5 ++ v.flatMap fun x => emitBits x pw
/-- Groups of 32 values, the last shorter (R296). -/
def groups32 (v : List Nat) : List (List Nat) := (List.range (ceilDiv v.length 32)).map fun g => (v.drop (32 * g)).take 32
/-- Bytes of a bit string, zero bits to the end of the last 16-byte unit (R297). -/
def packBits (l : List Bool) : Bytes :=
  let n := 16 * ceilDiv l.length 128
  (List.range n).map fun i => BitVec.ofNat 8 (bitsNat ((l.drop (8 * i)).take 8))

/-- A lossless row record of the combined codes of a row (R297). -/
def losslessRecord (f : Fmt) (ds : List Nat) : Bytes :=
  let w := planeWidths f
  packBits ((groups32 (ds.map fun c => (planesOf f c).1)).flatMap (codeGroup w.1) ++
    (groups32 (ds.map fun c => (planesOf f c).2)).flatMap (codeGroup w.2))

/-- Decodes one group of `n` values of width `pw`, with the bits after it (R296, R317). -/
def decodeGroup (pw n : Nat) (l : List Bool) : Option (List Nat × List Bool) :=
  let w := bitsNat (l.take 5)
  let r := l.drop 5
  if w = 31 then
    if r.length < n * pw then none
    else some ((List.range n).map fun i => bitsNat ((r.drop (i * pw)).take pw), r.drop (n * pw))
  else if pw < w || r.length < pw + n * w || l.length < 5 then none
  else
    let lo := bitsNat (r.take pw)
    let q := r.drop pw
    some ((List.range n).map fun i => (lo + bitsNat ((q.drop (i * w)).take w)) % 2 ^ pw, q.drop (n * w))
/-- Decodes the groups of a plane of `cols` values. -/
def decodePlane (pw cols : Nat) (l : List Bool) : Option (List Nat × List Bool) :=
  (List.range (ceilDiv cols 32)).foldl (fun acc g =>
    acc.bind fun a => (decodeGroup pw (min 32 (cols - 32 * g)) a.2).map fun x => (a.1 ++ x.1, x.2)) (some ([], l))
/-- Combined codes of a lossless record; none when it does not decode (R317). -/
def decodeLossless (f : Fmt) (cols : Nat) (b : Bytes) : Option (List Nat) :=
  let w := planeWidths f
  let l := b.flatMap fun x => emitBits x.toNat 8
  (decodePlane w.1 cols l).bind fun e => (decodePlane w.2 cols e.2).bind fun m =>
    let pad := (128 - (l.length - m.2.length) % 128) % 128
    if m.2.length < pad || (m.2.take pad).any id then none
    else some ((e.1.zip m.1).map fun x => codeOfPlanes f x.1 x.2)

/-! ### Bounded rows (09 R299 to R301) -/

/-- A coded block: bytes, the codes a restore writes, whether it escaped, and the errors of a stored block. -/
structure QBlock where
  bytes : Bytes
  back : List Nat
  escaped : Bool
  errs : List Val
  deriving DecidableEq, Repr

/-- Codes one block of 32 (R299, R300); `rs` are the random bits. -/
def codeBlock (f q : Fmt) (mode : RMode) (bound : BitVec 32) (codes rs : List Nat) : QBlock :=
  let xs := codes.map (decodeF f)
  let esc : QBlock := { bytes := 0xFF :: packCodes f codes, back := codes, escaped := true, errs := [] }
  if xs.any fun v => !v.isFin then esc
  else
    let e8 := currentE8 q xs
    let qs := (xs.zip rs).map fun x => (narrow q mode x.2 true false e8 x.1).code
    let ys := qs.map fun c => (convRne f ((decodeF q c).scale ((e8 : Int) - 127))).code
    let errs := (xs.zip ys).map fun x => (x.1.add (decodeF f x.2).flip).withSign false
    if errs.any fun e => (hval bound).lt e then esc
    else { bytes := BitVec.ofNat 8 e8 :: packCodes q qs, back := ys, escaped := false, errs := errs }

/-- Blocks of 32 codes of a row. -/
def rowBlocks (f q : Fmt) (mode : RMode) (bound : BitVec 32) (codes rs : List Nat) : List QBlock :=
  ((groups32 codes).zip (groups32 rs)).map fun x => codeBlock f q mode bound x.1 x.2
/-- A bounded row record (R300). -/
def boundedRecord (bs : List QBlock) : Bytes :=
  let b := bs.flatMap (·.bytes)
  b ++ zeros (alignUp b.length 16 - b.length)

/-- Decodes one bounded row of `n` blocks (R300, R301, R317). -/
def decodeBounded (f q : Fmt) (n : Nat) (b : Bytes) : Option (List Nat) :=
  let r := (List.range n).foldl (fun (acc : Option (List Nat × Bytes)) _ =>
    acc.bind fun a =>
      match a.2 with
      | [] => none
      | e :: t =>
        let g := if e = 0xFF then f else q
        let k := elemBytes g 32
        if t.length < k then none
        else
          let cs := (List.range 32).map (codeAt g (t.take k))
          some (a.1 ++ (if e = 0xFF then cs else cs.map fun c => (convRne f ((decodeF q c).scale ((e.toNat : Int) - 127))).code),
                t.drop k)) (some ([], b))
  r.bind fun x =>
    let pad := alignUp (b.length - x.2.length) 16 - (b.length - x.2.length)
    if x.2.length < pad || (x.2.take pad).any (· != 0) then none else some x.1

/-- Smallest H32 value not less than a value that is not negative (R313). -/
def hUp (v : Val) : BitVec 32 :=
  let c := toH v
  if (hval c).lt v then c + 1 else c
/-- Largest of a list of values. -/
def maxVal (l : List Val) : Val := l.foldl (fun a b => if a.lt b then b else a) (.fin false 0 0)

/-! ### Checks (09 R294) -/

/-- Rows of the source: range and scale range of row `i = f ROWS + r`. -/
def TDesc.srcRow (d : TDesc) (i : Nat) : Nat × Nat := (d.src + i / d.rows * d.srcFrame + i % d.rows * d.srcPitch, d.rowBytes)
def TDesc.auxRow (d : TDesc) (i : Nat) : Nat × Nat := (d.aux + i * d.auxPitch, d.scaleBytes)
/-- Destination of row `i`; a RESTORE's is relative to its range (R306). -/
def TDesc.dstRow (d : TDesc) (i : Nat) : Nat × Nat :=
  if d.op = 2 then (d.dst + (i / d.rows - d.f0) * d.dstFrame + (i % d.rows - d.r0) * d.dstPitch, d.rowBytes)
  else (d.dst + i / d.rows * d.dstFrame + i % d.rows * d.dstPitch, d.rowBytes)
/-- Rows of a RESTORE's range, and of every frame it decodes (R306). -/
def TDesc.restRows (d : TDesc) : List Nat :=
  (List.range d.fCnt).flatMap fun f => (List.range d.rCnt).map fun r => (d.f0 + f) * d.rows + d.r0 + r
/-- Ranges read and written. -/
def TDesc.reads (d : TDesc) : List (Nat × Nat) :=
  if d.op = 2 then [(d.stream, d.fixed)]
  else (List.range d.count).map d.srcRow ++ (if d.scaled then (List.range d.count).map d.auxRow else [])
def TDesc.writes (d : TDesc) : List (Nat × Nat) :=
  match d.op with
  | 1 => [(d.stream, d.capacity)] ++ (if d.report = 0 then [] else [(d.report, 64)])
  | 2 => ((List.range d.fCnt).flatMap fun f => (List.range d.rCnt).map fun r =>
      (d.dst + f * d.dstFrame + r * d.dstPitch, d.rowBytes)) ++ (if d.scaled then d.restRows.map d.auxRow else [])
  | _ => (List.range d.count).map d.dstRow

/-- Step 2 of R294: local and in the partition; an empty range by its address. -/
def State.spwInside (s : State) (tn : Nat) (wr : Bool) (l : List (Nat × Nat)) : Bool :=
  (s.tenant? tn).any fun t => l.all fun r => decide (r.1 < 2 ^ 63) && inPart t false wr r.1 (max 1 r.2)
/-- Whether two lists of ranges share a byte. -/
def anyOverlap (a b : List (Nat × Nat)) : Bool := a.any fun x => b.any fun y => overlaps x.1 x.2 y.1 y.2

/-- Step 3 of R294, but for a RESTORE's header (DEDUCED, log entry 64). -/
def TDesc.consistent (d : TDesc) : Bool :=
  let hbm := fun a => decide (a < hbmEnd)
  (d.op == 3 || hbm d.stream) && (d.op != 1 || hbm d.report) &&
  (d.op != 1 || decide (d.fixed ≤ d.capacity)) &&
  (d.op == 2 || decide (d.rowBytes ≤ d.srcPitch)) && (d.op == 1 || decide (d.rowBytes ≤ d.dstPitch)) &&
  (!d.scaled || decide (d.scaleBytes ≤ d.auxPitch)) &&
  (d.op != 2 || (decide (d.f0 + d.fCnt ≤ d.frames) && decide (d.r0 + d.rCnt ≤ d.rows) &&
    (d.key == 1 || decide (d.rCnt * d.rowBytes ≤ 4194304)))) &&
  !anyOverlap d.reads d.writes

/-! ### Work -/

/-- The write-back of a descriptor that ends now. -/
def State.spwEnd (s : State) (t : Nat) (d : TDesc) (status : Nat) (dropped : Bool) (maxErr : BitVec 32) (escaped bytes : Nat) :
    State :=
  let u : UnitDone := { status := status, omitted := 0, dropped := dropped, maxError := maxErr, escaped := escaped,
                        streamBytes := bytes, op := d.op }
  s.onTile t fun x => { x with spwDone := some u }

/-- Codes of a row of the source. -/
def State.spwCodes (s : State) (d : TDesc) (i : Nat) : List Nat :=
  (List.range d.cols).map (codeAt d.f (s.bytesAt (d.srcRow i).1 d.rowBytes))

/-- Non-finite elements of a row of the source, those of a block whose scale is NaN among them (R314; 04 R124). -/
def State.spwNonfinite (s : State) (d : TDesc) (i : Nat) (codes : List Nat) : Nat :=
  (codes.zipIdx.filter fun c => !(decodeF d.f c.1).isFin || (d.scaled && s.byteAt ((d.auxRow i).1 + c.2 / 32) == 0xFF)).length
/-- Random bits of a row (R299). -/
def TDesc.rnd (d : TDesc) (g : Rng) (i : Nat) : List Nat :=
  if d.rmode = 1 then (List.range d.cols).map fun c => g.bits 0xFFFFFFFF c i d.tensorId else List.replicate d.cols 0
/-- Blocks of row `i` in bounded mode. -/
def TDesc.blocks (d : TDesc) (g : Rng) (i : Nat) (codes : List Nat) : List QBlock :=
  rowBlocks d.f d.q (if d.rmode = 1 then .sr else .rne) d.bound codes (d.rnd g i)

/-- What a SAVE or ROUNDTRIP has counted. -/
structure SaveAcc where
  s : State
  /-- Length of the stream so far. -/
  len : Nat
  prev : List (List Nat)
  errs : List Val
  escaped : Nat
  nonfinite : Nat
  dropped : Bool
  status : Nat

/-- One row of a SAVE (R295 to R300, R304, R308, R309) or of a ROUNDTRIP (R302). -/
def saveRow (d : TDesc) (g : Rng) (a : SaveAcc) (i : Nat) : SaveAcc :=
  if a.status ≠ stOK then a
  else
    let rd := a.s.loadAll 4 ([d.srcRow i] ++ if d.scaled then [d.auxRow i] else [])
    if !rd.2 then { a with s := rd.1, status := stUncorrectable }
    else
      let codes := rd.1.spwCodes d i
      let back := a.prev.getD (d.rows - 1) []
      let ds := if i / d.rows % d.key = 0 then codes else (codes.zip back).map fun x => x.1 ^^^ x.2
      let bl : List QBlock := if d.bounded then d.blocks g i codes else []
      let rec_ := if d.bounded then boundedRecord bl else losslessRecord d.f ds
      let b := { a with s := rd.1, len := a.len + rec_.length, prev := (codes :: a.prev).take d.rows,
                        nonfinite := a.nonfinite + rd.1.spwNonfinite d i codes }
      let c := { b with errs := a.errs ++ bl.flatMap QBlock.errs, escaped := a.escaped + (bl.filter QBlock.escaped).length }
      if d.op = 3 then
        let w := b.s.store 4 (d.dstRow i).1 (packCodes d.f (bl.flatMap QBlock.back))
        { c with s := w.1, status := if w.2 then stOK else stUncorrectable }
      else if a.dropped then b
      else if d.capacity < a.len + rec_.length then
        if d.dropOk then { b with dropped := true } else { b with status := stLimit }
      else
        let w := b.s.storeAll 4 ([(d.stream + a.len, rec_), (d.stream + 64 + 4 * i, toLE 4 (a.len / 16))] ++
          if d.scaled then [(d.stream + d.scaleOff + i * d.scaleBytes, b.s.bytesAt (d.auxRow i).1 d.scaleBytes)] else [])
        { c with s := w.1, status := if w.2 then stOK else stUncorrectable }

/-- A report record (R314). -/
def reportRecord (d : TDesc) (step bytes : Nat) (dropped : Bool) (maxErr : BitVec 32) (escaped nonfinite : Nat) : Bytes :=
  toLE 4 d.tensorId ++ toLE 1 ((if dropped then 1 else 0) + if d.bounded then 2 else 0) ++ toLE 1 (d.fmt + 16 * d.qfmt) ++
    toLE 2 d.key ++ toLE 8 step ++ toLE 8 d.raw ++ toLE 8 bytes ++ toLE 4 maxErr.toNat ++ toLE 4 escaped ++
    toLE 4 (sat32 nonfinite) ++ zeros 4 ++ toLE 8 d.capacity ++ zeros 8

/-- MAX_ERROR of the errors of the stored elements. -/
def maxError (errs : List Val) : BitVec 32 := if errs = [] then 0 else hUp (maxVal errs)

/-- SAVE and ROUNDTRIP (R302, R304, R308 to R314) (DESIGN CHOICE, log entry 11; DEDUCED, log entry 64). -/
def State.spwSave (s : State) (t : Nat) (k : Kernel) (d : TDesc) : State :=
  let w := s.draw
  let s0 := if d.op = 1 then
      (w.2.store 4 d.stream (streamHeader d 1 k.step.toNat (Config.headerHole w.1 0).toNat
        ((Config.headerHole w.1 1).setWidth 32))).1
    else s
  let a := (List.range d.count).foldl (saveRow d k.rng)
    { s := s0, len := d.fixed, prev := [], errs := [], escaped := 0, nonfinite := 0, dropped := false, status := stOK }
  let me := maxError a.errs
  if a.status ≠ stOK || d.op = 3 then a.s.spwEnd t d a.status false me a.escaped a.len
  else
    let s1 := (a.s.store 4 d.stream (streamHeader d (if a.dropped then 3 else 2) k.step.toNat a.len me)).1
    let s2 := if d.report = 0 then s1
      else (s1.store 4 d.report (reportRecord d k.step.toNat a.len a.dropped me a.escaped a.nonfinite)).1
    s2.spwEnd t d stOK a.dropped me a.escaped a.len

/-- What a RESTORE has decoded. -/
structure RestAcc where
  s : State
  prev : List (List Nat)
  status : Nat

/-- One row of a RESTORE: `i` is its number, `h` the stream's STREAM_BYTES (R306, R316, R317). -/
def restRow (d : TDesc) (h : Nat) (a : RestAcc) (i : Nat) : RestAcc :=
  if a.status ≠ stOK then a
  else
    let ix := a.s.load 4 (d.stream + 64 + 4 * i) (if i + 1 < d.count then 8 else 4)
    match ix.2 with
    | none => { a with s := ix.1, status := stUncorrectable }
    | some e =>
      let off := 16 * fld e 0 4
      let end_ := if i + 1 < d.count then min h (16 * fld e 4 4) else h
      if end_ ≤ off then { a with s := ix.1, status := stBadParam }
      else
        let rd := ix.1.load 4 (d.stream + off) (end_ - off)
        match rd.2 with
        | none => { a with s := rd.1, status := stUncorrectable }
        | some bs =>
          match (if d.bounded then decodeBounded d.f d.q (d.cols / 32) bs else decodeLossless d.f d.cols bs) with
          | none => { a with s := rd.1, status := stBadParam }
          | some ds =>
            let back := a.prev.getD (d.rCnt - 1) []
            let codes := if d.bounded || i / d.rows % d.key = 0 then ds else (ds.zip back).map fun x => x.1 ^^^ x.2
            let p := (codes :: a.prev).take d.rCnt
            if i / d.rows < d.f0 then { s := rd.1, prev := p, status := stOK }
            else
              let sc := if d.scaled then rd.1.load 4 (d.stream + d.scaleOff + i * d.scaleBytes) d.scaleBytes else (rd.1, some [])
              match sc.2 with
              | none => { a with s := sc.1, status := stUncorrectable }
              | some sb =>
                let w := sc.1.storeAll 4 ([((d.dstRow i).1, packCodes d.f codes)] ++ if d.scaled then [((d.auxRow i).1, sb)] else [])
                { s := w.1, prev := p, status := if w.2 then stOK else stUncorrectable }

/-- RESTORE whose header `h` fits (R306, R307, R310, R312) (DEDUCED, log entry 64). -/
def State.spwRestore (s : State) (t : Nat) (d : TDesc) (h : Bytes) : State :=
  let me := BitVec.ofNat 32 (fld h 48 4)
  let n := fld h 32 8
  if fld h 4 1 = 3 then s.spwEnd t d stOK true me 0 n
  else
    let k0 := d.f0 - d.f0 % d.key
    let rows := (List.range (d.f0 + d.fCnt - k0)).flatMap fun f => (List.range d.rCnt).map fun r => (k0 + f) * d.rows + d.r0 + r
    let a := rows.foldl (restRow d n) { s := s, prev := [], status := stOK }
    let s1 := if 1 < d.key then a.s.onTile t fun x =>
        { x with refBuf := a.prev.reverse.zipIdx.map fun y => (d.r0 + y.2, y.1) } else a.s
    s1.spwEnd t d a.status false me 0 n

/-- Runs the engine's next descriptor when its operation is one of this row's (R292, R294). An engine that a BLOCK_RESET stops,
or whose kernel stops for a fault, starts nothing (R318). -/
def State.spwRow (s : State) (t : Nat) (mine : Nat → Bool) : State :=
  match (s.tiles[t]?).bind fun x => if x.spwDone.isNone then x.spw.head? else none with
  | none => s
  | some r =>
    if s.blocked 5 t 0 || s.faulted (.path r.t r.p r.seq r.bundle r.kid) then s
    else match s.kernel? r.kid, s.load 4 (cisAddr t (r.base + 128 * r.done)) 128 with
    | none, _ => s
    | some _, (s1, none) => if mine 0 then s1.spwEnd t (tdescOf []) stUncorrectable false 0 0 0 else s
    | some k, (_, some b) =>
      let d := tdescOf b
      if !mine d.op then s
      else if !tdescOk b then s.spwEnd t d stBadParam false 0 0 0
      else if !s.spwInside k.tenant false d.reads || !s.spwInside k.tenant true d.writes then s.spwEnd t d stDenied false 0 0 0
      else if !d.consistent then s.spwEnd t d stBadParam false 0 0 0
      else if (d.reads ++ d.writes).any fun x => hbmAny s.groupOff x.1 x.2 then s.spwEnd t d stNoResource false 0 0 0
      else if (d.reads ++ d.writes).any fun x => s.mustWait x.1 x.2 then s
      else match d.writes.findSome? fun x => s.lockOn x.1 x.2 with
        | some lk => s.hazard (some (r.kid, r.t, r.p, r.bundle)) lk
        | none =>
          if d.op ≠ 2 then s.spwSave t k d
          else match s.load 4 d.stream 64 with
            | (s1, none) => s1.spwEnd t d stUncorrectable false 0 0 0
            | (s1, some h) =>
              let me := BitVec.ofNat 32 (fld h 48 4)
              if !headerOk d k.step.toNat h then s1.spwEnd t d stBadParam false me 0 (fld h 32 8)
              else if !s1.spwInside k.tenant false [(d.stream, fld h 32 8)] && fld h 4 1 == 2 then
                s1.spwEnd t d stDenied false me 0 (fld h 32 8)
              else if fld h 4 1 == 2 && anyOverlap [(d.stream, fld h 32 8)] d.writes then s1.spwEnd t d stBadParam false me 0 (fld h 32 8)
              else if fld h 4 1 == 2 && hbmAny s1.groupOff d.stream (fld h 32 8) then s1.spwEnd t d stNoResource false me 0 (fld h 32 8)
              else if fld h 4 1 == 2 && s1.mustWait d.stream (fld h 32 8) then s1
              else s1.spwRestore t d h

/-- SAVE. An operation that is not defined ends here with BAD_PARAM. -/
def saveStreamStep (t : Nat) (s : State) : State := s.spwRow t fun op => !(op == 2 || op == 3)
def execSaveStream (t : Nat) (s : State) : Host.Outcome State Fault Refusal := .next (saveStreamStep t s)
/-- RESTORE. -/
def restoreStreamStep (t : Nat) (s : State) : State := s.spwRow t (· == 2)
def execRestoreStream (t : Nat) (s : State) : Host.Outcome State Fault Refusal := .next (restoreStreamStep t s)
/-- ROUNDTRIP. -/
def roundtripStep (t : Nat) (s : State) : State := s.spwRow t (· == 3)
def execRoundtrip (t : Nat) (s : State) : Host.Outcome State Fault Refusal := .next (roundtripStep t s)

/-- SPILLWAY_COMPLETE (R312; 07 R242). -/
def spillwayCompleteStep (t : Nat) (s : State) : State :=
  match s.tiles[t]? with
  | none => s
  | some x =>
    match x.spw.head?, x.spwDone with
    | some r, some d =>
      let s1 := s.putFields (cisAddr t (r.base + 128 * r.done)) (spwBack d)
      (s1.onTile t fun y => { y with spw := unitNext y.spw d.status, spwDone := none }).unitEnd r d.status
    | _, _ => s
def execSpillwayComplete (t : Nat) (s : State) : Host.Outcome State Fault Refusal := .next (spillwayCompleteStep t s)

end Sys2Proof.Machine
end

