-- ==== Sys2Proof/Machine/Dispatch.lean ====
section
/-! DEFINITION. What each command does to everything but the queue: one arm for each row of spec/opcode_table.json. -/

namespace Sys2Proof.Machine

/-- The effect of a command on the state. -/
def exec (i : Instr) (s : State) : Host.Outcome State Fault Refusal :=
  match i with
  | .statusCmd att ring => Sys2Proof.Machine.execStatusCmd att ring s
  | .identify att ring => Sys2Proof.Machine.execIdentify att ring s
  | .attach att ring => Sys2Proof.Machine.execAttach att ring s
  | .detach att ring => Sys2Proof.Machine.execDetach att ring s
  | .attest att ring => Sys2Proof.Machine.execAttest att ring s
  | .telemetryRead att ring => Sys2Proof.Machine.execTelemetryRead att ring s
  | .planLoad att ring => Sys2Proof.Machine.execPlanLoad att ring s
  | .jobStart att ring => Sys2Proof.Machine.execJobStart att ring s
  | .jobPause att ring => Sys2Proof.Machine.execJobPause att ring s
  | .jobResume att ring => Sys2Proof.Machine.execJobResume att ring s
  | .jobStop att ring => Sys2Proof.Machine.execJobStop att ring s
  | .stepRun att ring => Sys2Proof.Machine.execStepRun att ring s
  | .kernelLaunch att ring => Sys2Proof.Machine.execKernelLaunch att ring s
  | .moveCmd att ring => Sys2Proof.Machine.execMoveCmd att ring s
  | .fillCmd att ring => Sys2Proof.Machine.execFillCmd att ring s
  | .compareCmd att ring => Sys2Proof.Machine.execCompareCmd att ring s
  | .fenceCmd att ring => Sys2Proof.Machine.execFenceCmd att ring s
  | .channelEnable att ring => Sys2Proof.Machine.execChannelEnable att ring s
  | .channelDisable att ring => Sys2Proof.Machine.execChannelDisable att ring s
  | .groupCreate att ring => Sys2Proof.Machine.execGroupCreate att ring s
  | .groupDestroy att ring => Sys2Proof.Machine.execGroupDestroy att ring s
  | .collective att ring => Sys2Proof.Machine.execCollective att ring s
  | .reshard att ring => Sys2Proof.Machine.execReshard att ring s
  | .streamOpen att ring => Sys2Proof.Machine.execStreamOpen att ring s
  | .streamClose att ring => Sys2Proof.Machine.execStreamClose att ring s
  | .streamFeed att ring => Sys2Proof.Machine.execStreamFeed att ring s
  | .streamPriority att ring => Sys2Proof.Machine.execStreamPriority att ring s
  | .pipeConfigure att ring => Sys2Proof.Machine.execPipeConfigure att ring s
  | .pipeStart att ring => Sys2Proof.Machine.execPipeStart att ring s
  | .pipeStop att ring => Sys2Proof.Machine.execPipeStop att ring s
  | .pipeSeek att ring => Sys2Proof.Machine.execPipeSeek att ring s
  | .ckptTake att ring => Sys2Proof.Machine.execCkptTake att ring s
  | .ckptRestore att ring => Sys2Proof.Machine.execCkptRestore att ring s
  | .ckptPolicy att ring => Sys2Proof.Machine.execCkptPolicy att ring s
  | .guardGroupSet att ring => Sys2Proof.Machine.execGuardGroupSet att ring s
  | .powerCap att ring => Sys2Proof.Machine.execPowerCap att ring s
  | .operatingPolicy att ring => Sys2Proof.Machine.execOperatingPolicy att ring s
  | .domainPower att ring => Sys2Proof.Machine.execDomainPower att ring s
  | .sleepCmd att ring => Sys2Proof.Machine.execSleepCmd att ring s
  | .wakeCmd att ring => Sys2Proof.Machine.execWakeCmd att ring s
  | .blockReset att ring => Sys2Proof.Machine.execBlockReset att ring s
  | .moduleReset att ring => Sys2Proof.Machine.execModuleReset att ring s
  | .scrubPolicy att ring => Sys2Proof.Machine.execScrubPolicy att ring s
  | .fwStage att ring => Sys2Proof.Machine.execFwStage att ring s
  | .fwActivate att ring => Sys2Proof.Machine.execFwActivate att ring s
  | .keyManifest att ring => Sys2Proof.Machine.execKeyManifest att ring s
  | .kvCreate att ring => Sys2Proof.Machine.execKvCreate att ring s
  | .kvAppend att ring => Sys2Proof.Machine.execKvAppend att ring s
  | .kvRelease att ring => Sys2Proof.Machine.execKvRelease att ring s
  | .rolloutStep att ring => Sys2Proof.Machine.execRolloutStep att ring s
  | .badOpcode att ring => Sys2Proof.Machine.execBadOpcode att ring s
  | .doorbellWrite att ring tail => Sys2Proof.Machine.execDoorbellWrite att ring tail s
  | .doorbellRead att ring => Sys2Proof.Machine.execDoorbellRead att ring s
  | .attFenceRead att => Sys2Proof.Machine.execAttFenceRead att s
  | .ringEnable att ring log2 => Sys2Proof.Machine.execRingEnable att ring log2 s
  | .ringDisable att ring log2 => Sys2Proof.Machine.execRingDisable att ring log2 s
  | .registerWrite bus offset value => Sys2Proof.Machine.execRegisterWrite bus offset value s
  | .bar2Read att off len stale => Sys2Proof.Machine.execBar2Read att off len stale s
  | .bar2Write att off data => Sys2Proof.Machine.execBar2Write att off data s
  | .replyTimeout uid => Sys2Proof.Machine.execReplyTimeout uid s
  | .attachmentReset att => Sys2Proof.Machine.execAttachmentReset att s
  | .orphanWarn tenant => Sys2Proof.Machine.execOrphanWarn tenant s
  | .orphanHoldExpiry tenant => Sys2Proof.Machine.execOrphanHoldExpiry tenant s
  | .tenantClearDone hub index => Sys2Proof.Machine.execTenantClearDone hub index s
  | .stepOpen job => Sys2Proof.Machine.execStepOpen job s
  | .stepEntryStart job => Sys2Proof.Machine.execStepEntryStart job s
  | .skipCountSum job => Sys2Proof.Machine.execSkipCountSum job s
  | .stepWorkEnd job => Sys2Proof.Machine.execStepWorkEnd job s
  | .bundleDispatch t p => Sys2Proof.Machine.execBundleDispatch t p s
  | .nop => Sys2Proof.Machine.execNop s
  | .signalTok t p => Sys2Proof.Machine.execSignalTok t p s
  | .tokenCountAdd t p => Sys2Proof.Machine.execTokenCountAdd t p s
  | .remoteSignal => Sys2Proof.Machine.execRemoteSignal s
  | .waitTok t p => Sys2Proof.Machine.execWaitTok t p s
  | .loop t p => Sys2Proof.Machine.execLoop t p s
  | .bnz t p => Sys2Proof.Machine.execBnz t p s
  | .setc t p => Sys2Proof.Machine.execSetc t p s
  | .addc t p => Sys2Proof.Machine.execAddc t p s
  | .ldc t p => Sys2Proof.Machine.execLdc t p s
  | .stc t p => Sys2Proof.Machine.execStc t p s
  | .endProg t p => Sys2Proof.Machine.execEndProg t p s
  | .mma t p => Sys2Proof.Machine.execMma t p s
  | .kGroup t p faults => Sys2Proof.Machine.execKGroup t p faults s
  | .odsetA t p => Sys2Proof.Machine.execOdsetA t p s
  | .odsetS t p => Sys2Proof.Machine.execOdsetS t p s
  | .slotctx t p => Sys2Proof.Machine.execSlotctx t p s
  | .slotClear t p => Sys2Proof.Machine.execSlotClear t p s
  | .slotLoad t p => Sys2Proof.Machine.execSlotLoad t p s
  | .slotStore t p => Sys2Proof.Machine.execSlotStore t p s
  | .drain t p => Sys2Proof.Machine.execDrain t p s
  | .drainAdd t p => Sys2Proof.Machine.execDrainAdd t p s
  | .slotGive t p => Sys2Proof.Machine.execSlotGive t p s
  | .slotTake t p => Sys2Proof.Machine.execSlotTake t p s
  | .mstat t p => Sys2Proof.Machine.execMstat t p s
  | .vadd t p => Sys2Proof.Machine.execVadd t p s
  | .vsub t p => Sys2Proof.Machine.execVsub t p s
  | .vmul t p => Sys2Proof.Machine.execVmul t p s
  | .vfma t p => Sys2Proof.Machine.execVfma t p s
  | .vfms t p => Sys2Proof.Machine.execVfms t p s
  | .vmin t p => Sys2Proof.Machine.execVmin t p s
  | .vmax t p => Sys2Proof.Machine.execVmax t p s
  | .vabs t p => Sys2Proof.Machine.execVabs t p s
  | .vneg t p => Sys2Proof.Machine.execVneg t p s
  | .copysign t p => Sys2Proof.Machine.execCopysign t p s
  | .vmov t p => Sys2Proof.Machine.execVmov t p s
  | .cmpeq t p => Sys2Proof.Machine.execCmpeq t p s
  | .cmpne t p => Sys2Proof.Machine.execCmpne t p s
  | .cmplt t p => Sys2Proof.Machine.execCmplt t p s
  | .cmple t p => Sys2Proof.Machine.execCmple t p s
  | .cmpun t p => Sys2Proof.Machine.execCmpun t p s
  | .sel t p => Sys2Proof.Machine.execSel t p s
  | .mand t p => Sys2Proof.Machine.execMand t p s
  | .mor t p => Sys2Proof.Machine.execMor t p s
  | .mxor t p => Sys2Proof.Machine.execMxor t p s
  | .mnot t p => Sys2Proof.Machine.execMnot t p s
  | .rsum t p => Sys2Proof.Machine.execRsum t p s
  | .rmax t p => Sys2Proof.Machine.execRmax t p s
  | .exp2 t p => Sys2Proof.Machine.execExp2 t p s
  | .log2 t p => Sys2Proof.Machine.execLog2 t p s
  | .rcp t p => Sys2Proof.Machine.execRcp t p s
  | .rsqrt t p => Sys2Proof.Machine.execRsqrt t p s
  | .sint t p => Sys2Proof.Machine.execSint t p s
  | .cost t p => Sys2Proof.Machine.execCost t p s
  | .cvt t p => Sys2Proof.Machine.execCvt t p s
  | .vld t p => Sys2Proof.Machine.execVld t p s
  | .vst t p => Sys2Proof.Machine.execVst t p s
  | .vldb t p => Sys2Proof.Machine.execVldb t p s
  | .vstb t p => Sys2Proof.Machine.execVstb t p s
  | .sld t p => Sys2Proof.Machine.execSld t p s
  | .sst t p => Sys2Proof.Machine.execSst t p s
  | .slotReturn t p => Sys2Proof.Machine.execSlotReturn t p s
  | .setlen t p => Sys2Proof.Machine.execSetlen t p s
  | .fget t p => Sys2Proof.Machine.execFget t p s
  | .fclr t p => Sys2Proof.Machine.execFclr t p s
  | .lds t p => Sys2Proof.Machine.execLds t p s
  | .sts t p => Sys2Proof.Machine.execSts t p s
  | .vctx t p => Sys2Proof.Machine.execVctx t p s
  | .update t p => Sys2Proof.Machine.execUpdate t p s
  | .ledgerFold t => Sys2Proof.Machine.execLedgerFold t s
  | .movd t p => Sys2Proof.Machine.execMovd t p s
  | .xexp t p => Sys2Proof.Machine.execXexp t p s
  | .spill t p => Sys2Proof.Machine.execSpill t p s
  | .kernelEnd kid => Sys2Proof.Machine.execKernelEnd kid s
  | .deadlock kid => Sys2Proof.Machine.execDeadlock kid s
  | .runLimit kid => Sys2Proof.Machine.execRunLimit kid s
  | .copy mv ch => Sys2Proof.Machine.execCopy mv ch s
  | .fillDescriptor mv ch => Sys2Proof.Machine.execFillDescriptor mv ch s
  | .compareDescriptor mv ch => Sys2Proof.Machine.execCompareDescriptor mv ch s
  | .gather mv ch => Sys2Proof.Machine.execGather mv ch s
  | .burstIssue mv => Sys2Proof.Machine.execBurstIssue mv s
  | .descriptorComplete mv ch => Sys2Proof.Machine.execDescriptorComplete mv ch s
  | .expand t => Sys2Proof.Machine.execExpand t s
  | .foldGrad t => Sys2Proof.Machine.execFoldGrad t s
  | .poolMax t => Sys2Proof.Machine.execPoolMax t s
  | .poolAvg t => Sys2Proof.Machine.execPoolAvg t s
  | .poolGrad t => Sys2Proof.Machine.execPoolGrad t s
  | .cropResize t => Sys2Proof.Machine.execCropResize t s
  | .expansionComplete t => Sys2Proof.Machine.execExpansionComplete t s
  | .saveStream t => Sys2Proof.Machine.execSaveStream t s
  | .restoreStream t => Sys2Proof.Machine.execRestoreStream t s
  | .roundtrip t => Sys2Proof.Machine.execRoundtrip t s
  | .spillwayComplete t => Sys2Proof.Machine.execSpillwayComplete t s
  | .governorLoop t sense => Sys2Proof.Machine.execGovernorLoop t sense s
  | .slackEmergency t => Sys2Proof.Machine.execSlackEmergency t s
  | .floorHoldExpiry t => Sys2Proof.Machine.execFloorHoldExpiry t s
  | .floorMeasure t floorMv => Sys2Proof.Machine.execFloorMeasure t floorMv s
  | .ageingMeasurement vRated readable => Sys2Proof.Machine.execAgeingMeasurement vRated readable s
  | .telemetryPublish => Sys2Proof.Machine.execTelemetryPublish s
  | .patrolScrubLine g fresh onDie => Sys2Proof.Machine.execPatrolScrubLine g fresh onDie s
  | .sramScrub word fresh => Sys2Proof.Machine.execSramScrub word fresh s
  | .healthRecordRewrite which => Sys2Proof.Machine.execHealthRecordRewrite which s
  | .memoryGroupReady g => Sys2Proof.Machine.execMemoryGroupReady g s
  | .linkFrame port data bad => Sys2Proof.Machine.execLinkFrame port data bad s
  | .identMsg port => Sys2Proof.Machine.execIdentMsg port s
  | .mapMsg port => Sys2Proof.Machine.execMapMsg port s
  | .widthMsg port => Sys2Proof.Machine.execWidthMsg port s
  | .txeqMsg port => Sys2Proof.Machine.execTxeqMsg port s
  | .linkSignalDetect port => Sys2Proof.Machine.execLinkSignalDetect port s
  | .linkTrained port lanes => Sys2Proof.Machine.execLinkTrained port lanes s
  | .linkSignalLoss port => Sys2Proof.Machine.execLinkSignalLoss port s
  | .opticalCalibration port count => Sys2Proof.Machine.execOpticalCalibration port count s
  | .packetForward port => Sys2Proof.Machine.execPacketForward port s
  | .routeRecompute => Sys2Proof.Machine.execRouteRecompute s
  | .moduleIdFix => Sys2Proof.Machine.execModuleIdFix s
  | .sluiceOpen => Sys2Proof.Machine.execSluiceOpen s
  | .sluiceClose => Sys2Proof.Machine.execSluiceClose s
  | .readReq => Sys2Proof.Machine.execReadReq s
  | .writeReq => Sys2Proof.Machine.execWriteReq s
  | .atomicReq => Sys2Proof.Machine.execAtomicReq s
  | .readRsp => Sys2Proof.Machine.execReadRsp s
  | .writeAck => Sys2Proof.Machine.execWriteAck s
  | .atomicRsp => Sys2Proof.Machine.execAtomicRsp s
  | .peerFence peer => Sys2Proof.Machine.execPeerFence peer s
  | .gapTimeout src vc => Sys2Proof.Machine.execGapTimeout src vc s
  | .brk => Sys2Proof.Machine.execBrk s
  | .responseTimeout of => Sys2Proof.Machine.execResponseTimeout of s
  | .jobControl => Sys2Proof.Machine.execJobControl s
  | .controlRsp => Sys2Proof.Machine.execControlRsp s
  | .restoreDone => Sys2Proof.Machine.execRestoreDone s
  | .groupAnnounce => Sys2Proof.Machine.execGroupAnnounce s
  | .arrive => Sys2Proof.Machine.execArrive s
  | .releaseStep => Sys2Proof.Machine.execReleaseStep s
  | .abandon => Sys2Proof.Machine.execAbandon s
  | .jobFailed => Sys2Proof.Machine.execJobFailed s
  | .holdings => Sys2Proof.Machine.execHoldings s
  | .wakeControlPacket => Sys2Proof.Machine.execWakeControlPacket s
  | .resetReq => Sys2Proof.Machine.execResetReq s
  | .cdata upset => Sys2Proof.Machine.execCdata upset s
  | .gdata => Sys2Proof.Machine.execGdata s
  | .checkAck => Sys2Proof.Machine.execCheckAck s
  | .resendReq => Sys2Proof.Machine.execResendReq s
  | .landed => Sys2Proof.Machine.execLanded s
  | .collStart vc => Sys2Proof.Machine.execCollStart vc s
  | .collectiveStall rid => Sys2Proof.Machine.execCollectiveStall rid s
  | .pdata => Sys2Proof.Machine.execPdata s
  | .ckptCommit job tier writesOk => Sys2Proof.Machine.execCkptCommit job tier writesOk s
  | .ckptIntervalRecompute job => Sys2Proof.Machine.execCkptIntervalRecompute job s
  | .stepTimeout job => Sys2Proof.Machine.execStepTimeout job s
  | .pictureStart encode => Sys2Proof.Machine.execPictureStart encode s
  | .pictureComplete encode pipe => Sys2Proof.Machine.execPictureComplete encode pipe s
  | .rolloutPicture uid k => Sys2Proof.Machine.execRolloutPicture uid k s
  | .batchFillStart tenant => Sys2Proof.Machine.execBatchFillStart tenant s
  | .fetchSample tenant pcie => Sys2Proof.Machine.execFetchSample tenant pcie s
  | .admission tenant => Sys2Proof.Machine.execAdmission tenant s
  | .decodeSample tenant => Sys2Proof.Machine.execDecodeSample tenant s
  | .augment tenant => Sys2Proof.Machine.execAugment tenant s
  | .assemble tenant => Sys2Proof.Machine.execAssemble tenant s
  | .fetchRetry tenant pcie => Sys2Proof.Machine.execFetchRetry tenant pcie s
  | .pipeStatusRewrite tenant => Sys2Proof.Machine.execPipeStatusRewrite tenant s
  | .blockIdleTimeout uid => Sys2Proof.Machine.execBlockIdleTimeout uid s
  | .powerOn => Sys2Proof.Machine.execPowerOn s
  | .auxMainTimer => Sys2Proof.Machine.execAuxMainTimer s
  | .mainGood mv => Sys2Proof.Machine.execMainGood mv s
  | .powerFail mv => Sys2Proof.Machine.execPowerFail mv s
  | .holdupEnd => Sys2Proof.Machine.execHoldupEnd s
  | .mainStable => Sys2Proof.Machine.execMainStable s
  | .auxFail => Sys2Proof.Machine.execAuxFail s
  | .resetPin low => Sys2Proof.Machine.execResetPin low s
  | .watchdog => Sys2Proof.Machine.execWatchdog s
  | .thermalTrip t temp => Sys2Proof.Machine.execThermalTrip t temp s
  | .tripHoldExpiry => Sys2Proof.Machine.execTripHoldExpiry s
  | .resetRelease slot ledger => Sys2Proof.Machine.execResetRelease slot ledger s
  | .selftestComplete bits => Sys2Proof.Machine.execSelftestComplete bits s
  | .wakeN => Sys2Proof.Machine.execWakeN s
  | .i3cDynamicAddress addr => Sys2Proof.Machine.execI3cDynamicAddress addr s
  | .carrierCap value => Sys2Proof.Machine.execCarrierCap value s
  | .fabricOrigin value => Sys2Proof.Machine.execFabricOrigin value s
  | .sbWake => Sys2Proof.Machine.execSbWake s
  | .recoveryStart => Sys2Proof.Machine.execRecoveryStart s
  | .recoveryVerified => Sys2Proof.Machine.execRecoveryVerified s
  | .recoveryClear => Sys2Proof.Machine.execRecoveryClear s
  | .recoveryData value => Sys2Proof.Machine.execRecoveryData value s
  | .attachmentLinkUp att refclk => Sys2Proof.Machine.execAttachmentLinkUp att refclk s
  | .stagingReady => Sys2Proof.Machine.execStagingReady s
  | .reservoirWearLevelling sparePct nandBytes refreshes => Sys2Proof.Machine.execReservoirWearLevelling sparePct nandBytes refreshes s

end Sys2Proof.Machine
end

