-- ==== Sys2Proof/Machine/Idle.lean ====
section
/-! DEFINITION. What the module does on an empty queue: one microsecond passes, the posted PCIe writes that have
arrived land (02 R34), and what waited for the end of other work ends (DESIGN CHOICE, log entry 13). -/

namespace Sys2Proof.Machine

/-- One microsecond passes: the clock, the counters of the pipelines' stages (14 R511), and the reset controller's sample ends
(17 R608) (DESIGN CHOICE, log entries 13, 83, 108). -/
def State.tick (s : State) : State :=
  { s with clk := { s.clk with nowUs := s.clk.nowUs + 1 }
           pow := { s.pow with sampled := [] }
           media := { s.media with pipelines := s.media.pipelines.map Pipeline.tick } }

/-- The idle step (DESIGN CHOICE, log entry 13). -/
def State.idle (s : State) : State := (((((List.range 4).foldl State.landPosted s).consumeAll.takeRecovery).settle).readAll.mediaOn.blocksOn.domainReplies).tick

end Sys2Proof.Machine
end

