-- ==== Sys2Proof/Machine/Contacts.lean ====
section
/-! DEFINITION. What stands at the module's boundary (19): the positions of the main connector and the PCIe lanes of each
attachment, the fibres of a port, the way of light through a closed sluice, the I3C target address, and the level that each
sideband output shows (17 R615). No row is addressed by a position or a fibre, so these are read by whoever looks at the
boundary and by no meaning. -/

namespace Sys2Proof.Machine

/-! ### Main connector (19 R634) -/

/-- Rows of the main connector. -/
inductive ConnRow
  | a | b
  deriving DecidableEq, Repr
/-- What stands at a position. Lane contacts carry their lane and whether they are the p side. -/
inductive Contact
  | ret
  | transmit (lane : Nat) (p : Bool)
  | receive (lane : Nat) (p : Bool)
  | refclk (p : Bool)
  | aux3v3
  | moduleResetN | pwrGood | alertN | thermTripN | wakeN | i3cScl | i3cSda
  | slotId (bit : Nat)
  | presentN
  /-- Reserved: not connected, left open by the carrier. -/
  | reserved
  deriving DecidableEq, Repr

/-- The contact at a position of a row: positions 1 to 64 carry lane (pos − 1) / 4 between two returns, the table gives
65 to 80, and every position that no table names is reserved. -/
def contactAt (row : ConnRow) (pos : Nat) : Contact :=
  if pos = 0 then .reserved
  else if pos ≤ 64 then
    let lane := (pos - 1) / 4
    let i := (pos - 1) % 4
    if i = 0 ∨ i = 3 then .ret
    else match row with
      | .a => .transmit lane (i == 1)
      | .b => .receive lane (i == 1)
  else match row with
    | .a =>
      if pos = 65 ∨ pos = 68 then .ret
      else if pos = 66 then .refclk true
      else if pos = 67 then .refclk false
      else if 70 ≤ pos ∧ pos ≤ 73 then .aux3v3
      else if 74 ≤ pos ∧ pos ≤ 80 then .ret
      else .reserved
    | .b =>
      if 73 ≤ pos ∧ pos ≤ 78 then .slotId (pos - 73)
      else match pos with
        | 65 => .moduleResetN
        | 66 => .pwrGood
        | 67 => .alertN
        | 68 => .thermTripN
        | 69 => .wakeN
        | 70 => .i3cScl
        | 71 => .i3cSda
        | 72 => .ret
        | 79 => .ret
        | 80 => .presentN
        | _ => .reserved

/-- PCIe lanes of attachment `k` under the split in force, in order (19 R636). -/
def State.attLanes (s : State) (k : Nat) : List Nat :=
  let n := 16 / s.attCount
  if k < s.attCount then (List.range n).map (n * k + ·) else []
/-- Lanes as the partner may number them: reversed within the attachment (19 R638). -/
def State.attLanesAs (s : State) (k : Nat) (reversed : Bool) : List Nat :=
  if reversed then (s.attLanes k).reverse else s.attLanes k

/-! ### Sideband (17 R615; 19 R641) -/

/-- The I3C address that the target answers at: the dynamic one once it has been given, else 0x08 + SLOT_ID[4:0]; none while it
does not answer. -/
def State.i3cAddress (s : State) : Option Nat :=
  if !s.pow.auxGood || s.pow.stage = 0 then none
  else some ((s.boot.dynAddr.map (·.toNat)).getD (8 + s.fab.slotId % 32))

/-- Level of an output of the sideband, true for high. Tri-stated or released, it is pulled up to AUX_3V3, so that without the
auxiliary input no contact is high (17 R615). ALERT_N is driven from stage 2; THERM_TRIP_N is low while THERMAL_TRIP is
asserted and D0 is not in reset. -/
def State.outputLevel (s : State) (c : Contact) : Option Bool :=
  match c with
  | .alertN => some (s.pow.auxGood && (!s.driven || s.tel.alertN))
  | .thermTripN => some (s.pow.auxGood && s.tel.thermTripN)
  | .presentN => some false
  | _ => none

/-! ### Fibres and sluices (19 R647 to R649) -/

/-- Fibre of a port's transmit or receive lane. -/
def fibreOf (transmit : Bool) (lane : Nat) : Nat := if transmit then lane + 1 else lane + 17
/-- The lane that a fibre carries, and whether it transmits. -/
def laneOf (fibre : Nat) : Option (Bool × Nat) :=
  if 1 ≤ fibre ∧ fibre ≤ 16 then some (true, fibre - 1) else if 17 ≤ fibre ∧ fibre ≤ 32 then some (false, fibre - 17) else none
/-- Ports on the front edge from left to right: X+, X−, Y+, Y−, Z+, Z−, which is the order of their numbers. -/
def frontEdge : List Nat := List.range 6
/-- Where light that arrives on receive lane `lane` of a port leaves while the sluices are closed: on the same transmit lane of
its axis's other port. None while they are open. -/
def State.throughLight (s : State) (port lane : Nat) : Option (Nat × Nat) :=
  if s.fab.sluices || 6 ≤ port || 16 ≤ lane then none else some (if port % 2 = 0 then port + 1 else port - 1, lane)
/-- Loss in tenths of a decibel, at most, of a link across `n` bypassed positions (19 R650). -/
def linkLoss (n : Nat) : Nat := 20 * (n + 1) + 15 * n
/-- Whether a link across `n` bypassed positions stays within the budget of 9.0 dB (19 optical budget; 11 R413). -/
def linkCloses (n : Nat) : Bool := decide (linkLoss n ≤ 90)

end Sys2Proof.Machine
end

