-- ==== Sys2Proof/Safety.lean ====
section
/-! DEFINITION. What counts as a well-kept state, and the words the claims are stated in: which parts of the machine two
states share, when a host command starts, and what its reply says. -/

namespace Sys2Proof.Machine

/-- The canonical form of addressed memory: addresses strictly rising, no zero byte listed. -/
abbrev State.memWf (s : State) : Prop := swf (0 : BitVec 8) s.mem.cells = true

/-- Protected counter `i` (18 R624). -/
def State.protectedCounter (s : State) (i : Nat) : Nat := s.boot.counters.getD i 0

/-- A taken packet with opcode `op` starts: `c` is the command, `rc` its entry, `s1` the state with the packet taken off;
every check before the command's own has passed (02 R36, R49). -/
def State.starts (s : State) (op : Nat) (kind : ParKind) (att ring : Nat) (rc : RunCmd) (c : Cmd) (s1 : State) : Prop :=
  s.taking op kind att ring = some (rc, c, s1, stOK)

/-- A command ends at once: the outcome is the next state in which, after `u`, it has replied with this status and these
result words. -/
def Replies (o : Host.Outcome State Fault Refusal) (u : State) (rc : RunCmd) (status r0 r1 r2 : Nat) : Prop :=
  o = .next (u.finish rc status r0 r1 r2)

/-- A command stays in flight: the outcome is the next state `u` with the command in the table of running commands,
waiting for `w`. -/
def Waits (o : Host.Outcome State Fault Refusal) (u : State) (rc : RunCmd) (w : Wait) : Prop :=
  o = .next (u.ends rc (.wait w))

/-- The parts of the machine's state. -/
inductive Part where
  | tiles | hubMover | clk | mem | host | work | tel | fab | cas | media | resv | pow | boot
  deriving DecidableEq, Repr

/-- The two states share the queue of commands and every part that the list does not name. -/
structure SameBut (l : List Part) (s u : State) : Prop where
  pending : u.pending = s.pending
  tiles : Part.tiles ∉ l → u.tiles = s.tiles
  hubMover : Part.hubMover ∉ l → u.hubMover = s.hubMover
  clk : Part.clk ∉ l → u.clk = s.clk
  mem : Part.mem ∉ l → u.mem = s.mem
  host : Part.host ∉ l → u.host = s.host
  work : Part.work ∉ l → u.work = s.work
  tel : Part.tel ∉ l → u.tel = s.tel
  fab : Part.fab ∉ l → u.fab = s.fab
  cas : Part.cas ∉ l → u.cas = s.cas
  media : Part.media ∉ l → u.media = s.media
  resv : Part.resv ∉ l → u.resv = s.resv
  pow : Part.pow ∉ l → u.pow = s.pow
  boot : Part.boot ∉ l → u.boot = s.boot

/-- `u` is `s` but for tile `t`. -/
def OnlyTile (t : Nat) (s u : State) : Prop := ∃ f, u = s.onTile t f
/-- `u` is `s` but for issue path `p` of tile `t`. -/
def OnlyPath (t p : Nat) (s u : State) : Prop := ∃ f, u = s.onPath t p f
/-- `u` is `s` but for issue path `p`, matrix core `p` and vector engine `p` of tile `t`. -/
def OnlyPair (t p : Nat) (s u : State) : Prop := ∃ f g h, u = ((s.onPath t p f).onCore t p g).onEngine t p h
/-- `u` is `s` but for attachment `a`. -/
def OnlyAtt (a : Nat) (s u : State) : Prop := ∃ f, u = s.onAtt a f
/-- `u` is `s` but for port `i`. -/
def OnlyPort (i : Nat) (s u : State) : Prop := ∃ f, u = s.onPort i f
/-- `u` is `s` but for channel `ch` of mover `mv`. -/
def OnlyChan (mv ch : Nat) (s u : State) : Prop := ∃ f, u = s.onChan mv ch f

/-- The control instruction `it` of opcode `op` stands dispatched on path `x` of kernel `k`, whose tile issues. -/
def State.ctlHeld (s : State) (t p op : Nat) (k : Kernel) (x : Path) (it : QItem) : Prop :=
  s.path? t p = some x ∧ s.kernelOn t = some k ∧ x.ctl = some it ∧ s.issues t = true ∧ x.active = true ∧ wf it.word 5 0 = op

/-- The matrix instruction that `m` describes, of opcode `op`, is at the front of its queue, on a tile that issues and a
core that is neither fenced nor being reset. -/
def State.matHeld (s : State) (t p op : Nat) (x : Path) (m : MIn) : Prop :=
  s.path? t p = some x ∧ s.core? t p = some m.c ∧ s.kernelOn t = some m.k ∧ x.mq.head? = some m.q ∧ s.issues t = true ∧
    x.active = true ∧ wf m.q.word 5 0 = op ∧ s.blocked 2 t p = false ∧ m.c.fenced = false

/-- The vector instruction that `v` describes, of opcode `op`, is at the front of its queue, on a tile that issues and an
engine that is not being reset. -/
def State.vecFront (s : State) (t p op : Nat) (x : Path) (v : VIn) : Prop :=
  s.path? t p = some x ∧ s.engine? t p = some v.e ∧ s.kernelOn t = some v.k ∧ x.vq.head? = some v.q ∧ s.issues t = true ∧
    x.active = true ∧ wf v.q.word 7 0 = op ∧ s.blocked 3 t p = false
/-- The same, and no register of the engine holds an error (06 R232). -/
def State.vecHeld (s : State) (t p op : Nat) (x : Path) (v : VIn) : Prop := s.vecFront t p op x v ∧ v.e.regErr = []

/-- The vector instructions of a pair with their opcodes (07 vector opcodes). -/
def vectorRows (t p : Nat) : List (Instr × Nat) :=
  [(.vadd t p, 0x01), (.vsub t p, 0x02), (.vmul t p, 0x03), (.vfma t p, 0x04), (.vfms t p, 0x05), (.vmin t p, 0x06),
    (.vmax t p, 0x07), (.vabs t p, 0x08), (.vneg t p, 0x09), (.copysign t p, 0x0A), (.vmov t p, 0x0B)] ++
  [(.cmpeq t p, 0x10), (.cmpne t p, 0x11), (.cmplt t p, 0x12), (.cmple t p, 0x13), (.cmpun t p, 0x14), (.sel t p, 0x18),
    (.mand t p, 0x19), (.mor t p, 0x1A), (.mxor t p, 0x1B), (.mnot t p, 0x1C), (.rsum t p, 0x20), (.rmax t p, 0x21)] ++
  [(.exp2 t p, 0x28), (.log2 t p, 0x29), (.rcp t p, 0x2A), (.rsqrt t p, 0x2B), (.sint t p, 0x2C), (.cost t p, 0x2D),
    (.cvt t p, 0x30), (.vld t p, 0x38), (.vst t p, 0x39), (.vldb t p, 0x3A), (.vstb t p, 0x3B), (.sst t p, 0x41),
    (.sts t p, 0x4D)]

/-- The outcome takes the matrix instruction off its queue and changes nothing but path, core and engine of its pair, and
the error marks of memory; the core is then `c`. -/
def MatrixDone (o : Host.Outcome State Fault Refusal) (s : State) (t p : Nat) (x : Path) (c : Core) : Prop :=
  ∃ u, o = .next u ∧ SameBut [.tiles, .mem] s u ∧ u.mem.cells = s.mem.cells ∧
    u.path? t p = some { x with mq := x.mq.drop 1 } ∧ u.core? t p = some c ∧
    (∀ q r, (q, r) ≠ (t, p) → u.path? q r = s.path? q r ∧ u.core? q r = s.core? q r) ∧
    ∀ q r, u.engine? q r = s.engine? q r

/-- The outcome takes the vector instruction off its queue and changes nothing but that path and the engine of its pair,
which is then `e`. -/
def VectorDone (o : Host.Outcome State Fault Refusal) (s : State) (t p : Nat) (x : Path) (e : Engine) : Prop :=
  ∃ u, o = .next u ∧ OnlyPair t p s u ∧ u.path? t p = some { x with vq := x.vq.drop 1 } ∧ u.engine? t p = some e ∧
    u.core? t p = s.core? t p

/-- An element-wise vector instruction of pair `p` of tile `t` with its opcode, and what it makes of the sources A, B and
C of element (r, c): the code and the flags of its result (06 operation tables). -/
def vectorElements (t p : Nat) : List (Instr × Nat × (VIn → Nat → Nat → Nat × BitVec 5)) :=
  let val := fun (v : VIn) (code : Nat) => decodeF v.fmt code
  let two := fun (g : Val → Val → Val) (v : VIn) (r c : Nat) =>
    roundElem v.fmt (g (val v (v.a r c)) (val v (v.b r c))) [val v (v.a r c), val v (v.b r c)] false
  let three := fun (g : Val → Val → Val → Val) (v : VIn) (r c : Nat) =>
    roundElem v.fmt (g (val v (v.a r c)) (val v (v.b r c)) (val v (v.c r c)))
      [val v (v.a r c), val v (v.b r c), val v (v.c r c)] false
  let one := fun (g : Val → Val) (dz : Val → Bool) (v : VIn) (r c : Nat) =>
    roundElem .h32 (g (decodeF .h32 (v.a r c))) [decodeF .h32 (v.a r c)] (dz (decodeF .h32 (v.a r c)))
  [(.vadd t p, 0x01, two Val.add), (.vsub t p, 0x02, two fun a b => a.add b.flip), (.vmul t p, 0x03, two Val.mul),
   (.vfma t p, 0x04, three fun a b c => (a.mul b).add c), (.vfms t p, 0x05, three fun a b c => (a.mul b).add c.flip),
   (.vmin t p, 0x06, fun v r c => (minMax v.fmt false (v.a r c) (v.b r c), 0)),
   (.vmax t p, 0x07, fun v r c => (minMax v.fmt true (v.a r c) (v.b r c), 0)),
   (.vabs t p, 0x08, fun v r c => copyElem v.fmt (withSignCode v.fmt false (v.a r c))),
   (.vneg t p, 0x09, fun v r c => copyElem v.fmt (withSignCode v.fmt (!signOf v.fmt (v.a r c)) (v.a r c))),
   (.copysign t p, 0x0A, fun v r c => copyElem v.fmt (withSignCode v.fmt (signOf v.fmt (v.b r c)) (v.a r c))),
   (.vmov t p, 0x0B, fun v r c => copyElem v.fmt (v.a r c)),
   (.sel t p, 0x18, fun v r c => copyElem v.fmt (if v.e.mask (v.vc % 8) r c then v.a r c else v.b r c)),
   (.exp2 t p, 0x28, one vExp2 fun _ => false), (.log2 t p, 0x29, one vLog2 Val.isZero),
   (.rcp t p, 0x2A, one vRcp Val.isZero), (.rsqrt t p, 0x2B, one vRsqrt Val.isZero),
   (.sint t p, 0x2C, one vSint fun _ => false), (.cost t p, 0x2D, one vCost fun _ => false)]

/-- A compare or mask operation with its opcode and the bit it gives element (r, c) (06 R205, R211). -/
def vectorMasks (t p : Nat) : List (Instr × Nat × (VIn → Nat → Nat → Bool)) :=
  let nan := fun (v : VIn) (r c : Nat) => (decodeF v.fmt (v.a r c)).isNan || (decodeF v.fmt (v.b r c)).isNan
  let lt := fun (v : VIn) (r c : Nat) => (decodeF v.fmt (v.a r c)).lt (decodeF v.fmt (v.b r c))
  let gt := fun (v : VIn) (r c : Nat) => (decodeF v.fmt (v.b r c)).lt (decodeF v.fmt (v.a r c))
  [(.cmpeq t p, 0x10, fun v r c => !nan v r c && !lt v r c && !gt v r c),
   (.cmpne t p, 0x11, fun v r c => nan v r c || lt v r c || gt v r c), (.cmplt t p, 0x12, fun v r c => !nan v r c && lt v r c),
   (.cmple t p, 0x13, fun v r c => !nan v r c && (lt v r c || !gt v r c)), (.cmpun t p, 0x14, nan),
   (.mand t p, 0x19, fun v r c => v.ma r c && v.mb r c), (.mor t p, 0x1A, fun v r c => v.ma r c || v.mb r c),
   (.mxor t p, 0x1B, fun v r c => v.ma r c != v.mb r c), (.mnot t p, 0x1C, fun v r c => !v.ma r c)]

/-- Columns an instruction acts on: 64 packed, 32 otherwise. -/
def VIn.width (v : VIn) : Nat := if v.packed then 64 else 32

/-- The engine keeps everything but register `vd` and FLAGS. -/
def Engine.keepsBut (e e' : Engine) (vd : Nat) : Prop :=
  { e' with v := e.v, flags := e.flags } = e ∧ ∀ i r c, i ≠ vd → r < 16 → c < 32 → e'.h i r c = e.h i r c

/-- Kernel `k` is gone: no kernel has its number, its tiles run none and their token counters are zero. -/
def State.without (v : State) (k : Kernel) : Prop :=
  v.kernel? k.kid = none ∧ ∀ t ∈ k.tiles, ∀ x : Tile, v.tiles[t]? = some x → x.kernel = none ∧ x.tok = []

/-- The outcome ends kernel `k` and replies to the command `rc` that launched it: this status and RESULT0, the OR of its
engines' FLAGS, its run time in microseconds and the number `n` of further faults (07 R261); what waited for its end then
goes on (`settle`). -/
def EndsKernel (o : Host.Outcome State Fault Refusal) (s : State) (k : Kernel) (rc : RunCmd) (status r0 n : Nat) : Prop :=
  ∃ v : State, o = .next (v.finish rc status r0 (s.kernelFlags k)
      (sat32 (s.clk.nowUs - k.startUs) + min n 65535 * 2 ^ 32)).settle ∧ v.host = s.host ∧ v.without k

/-- RESULT0 of a kernel that ends on a fault: its code, and its tile, pair and bundle; DEADLOCK, RUN_LIMIT and STOPPED name
none (07 R261). -/
def KFault.result0 (f : KFault) : Nat :=
  if f.code = 0x11 ∨ f.code = 0x12 ∨ f.code = 0x13 then f.code
  else f.code + f.ltile * 2 ^ 8 + f.pair * 2 ^ 11 + f.bundle * 2 ^ 16

/-- Every byte of memory outside `n` bytes from `a` on reads as before. -/
def KeepsOutside (a n : Nat) (s u : State) : Prop := ∀ b, (b < a ∨ a + n ≤ b) → u.byteAt b = s.byteAt b

/-- The move-slot instruction `q` of opcode `op` is at the front of its queue, on a tile that issues. -/
def State.movHeld (s : State) (t p op : Nat) (k : Kernel) (x : Path) (q : QItem) : Prop :=
  s.path? t p = some x ∧ s.kernelOn t = some k ∧ x.xq.head? = some q ∧ s.issues t = true ∧ x.active = true ∧
    wf q.word 5 0 = op

/-- The channel has no descriptor in progress, and request `r` at its head has descriptor `b` next, read without effect. -/
def State.nextDesc (s : State) (mv ch : Nat) (x : Chan) (r : Req) (b : Bytes) : Prop :=
  s.chan? mv ch = some x ∧ x.act = none ∧ x.stopping = false ∧ x.reqs.head? = some r ∧ s.fetchDesc mv r = some (s, some b)

/-- Channel `ch` has a burst of `a` for request `r` to issue, and every other channel with one is of lower priority. -/
def State.servedNext (s : State) (mv ch : Nat) (x : Chan) (r : Req) (a : Active) : Prop :=
  s.chan? mv ch = some x ∧ s.burstReady mv ch = some (r, a) ∧ a.d.prio < 8 ∧
    ∀ c q b, s.burstReady mv c = some (q, b) → c = ch ∨ b.d.prio < a.d.prio

/-- The `n` bytes from `a` on are served at once: local, their memory ready and no basin read locks them. -/
def State.localFree (s : State) (addr n a : Nat) : Prop :=
  s.placeOf addr n = .loc a ∧ s.mustWait a n = false ∧ s.lockOn a n = none

/-- The pipeline after its stage `k` has passed sample `x` on, changed by `f` (14 R509, R511). -/
def Pipeline.passes (p : Pipeline) (x : Sample) (k : Nat) (f : Sample → Sample) : Pipeline :=
  { p with samples := modFirst (fun y => y.n == x.n && y.slot == x.slot) f p.samples, items := modAt p.items k (· + 1) }

end Sys2Proof.Machine
end

