-- ==== Sys2Proof/Certificates/Slice0/Obligations.lean ====
section
/-! DEFINITION. What is claimed of the module: each statement says which rule of spec/ it rests on. A statement that says
that a command answers a next state is about the command's own effect; the words `starts`, `Replies`, `Waits`, `SameBut`
and `OnlyPath` are those of Safety. -/

section Claims
open Sys2Proof Sys2Proof.Machine

/-! ### Issue paths and the control slot (07) -/

/-- 07 R658 (its first sentence): C0 reads as zero and writes to it are ignored; another control register holds what
is written to it, and no other register changes. And 07 control slot: SETC, ADDC, BNZ, LOOP and END take effect on
their own issue path and on nothing else. BNZ with a register of zero falls through, with another it jumps; LOOP with
a count of zero goes behind its body, with another it enters the body with that count. -/
def Obligations.ControlSlotActsOnItsPath : Prop :=
  (∀ (x : Path) (v : BitVec 32), x.c 0 = 0 ∧ x.setC 0 v = x ∧
    ∀ i, i ≠ 0 → x.c i = x.creg.getD i 0 ∧ x.setC i v = { x with creg := modAt x.creg i fun _ => v } ∧
      ∀ j, j ≠ i → (x.setC i v).c j = x.c j) ∧
  (∀ (s : State) (t p : Nat) (k : Kernel) (x : Path) (it : QItem),
    (s.ctlHeld t p 0x05 k x it → ∃ u, exec (.setc t p) s = .next u ∧ OnlyPath t p s u ∧
      u.path? t p = some { x.setC (wf it.word 9 6) (BitVec.ofNat 32 (wf it.word 41 10)) with ctl := none }) ∧
    (s.ctlHeld t p 0x06 k x it → ∃ u, exec (.addc t p) s = .next u ∧ OnlyPath t p s u ∧
      u.path? t p = some { x.setC (wf it.word 9 6) (x.c (wf it.word 13 10) + BitVec.ofNat 32 (wf it.word 45 14)) with ctl := none }) ∧
    (s.ctlHeld t p 0x04 k x it → it.areg = 0 → ∃ u, exec (.bnz t p) s = .next u ∧ OnlyPath t p s u ∧
      u.path? t p = some { x with ctl := none, pc := (afterBundle x.pc x.loops).1, loops := (afterBundle x.pc x.loops).2 }) ∧
    (s.ctlHeld t p 0x04 k x it → it.areg ≠ 0 →
      inIdleBody x.prog (keepLoops x.loops (wf it.word 20 10)) (wf it.word 20 10) = false →
      ∃ u, exec (.bnz t p) s = .next u ∧ OnlyPath t p s u ∧
        u.path? t p = some { x with ctl := none, pc := wf it.word 20 10, loops := keepLoops x.loops (wf it.word 20 10) }) ∧
    (s.ctlHeld t p 0x03 k x it → ∀ n, n = (if wf it.word 9 6 = 0 then wf it.word 25 10 else it.areg.toNat) →
      ∃ u y, exec (.loop t p) s = .next u ∧ OnlyPath t p s u ∧ u.path? t p = some y ∧ y.ctl = none ∧ y.creg = x.creg ∧
        (n = 0 → y.pc = (afterBundle (wf it.word 36 26) x.loops).1) ∧
        (n ≠ 0 → y.pc = x.pc + 1 ∧ y.loops = { first := x.pc + 1, last := wf it.word 36 26, left := n } :: x.loops)) ∧
    (s.ctlHeld t p 0x3F k x it → ∃ u, exec (.endProg t p) s = .next u ∧ OnlyPath t p s u ∧
      u.path? t p = some { x with ctl := none, ended := true }))

/-- 07 R658: LDC reads four bytes of the cistern into C[CD] and changes no byte of memory; STC stores C[CS] as four
bytes, least significant first, and no byte outside them changes. And 10 R330: an STC that meets a word with a double-bit
error has no such effect and records ECC_UNCORRECTABLE. -/
def Obligations.ControlLoadAndStore : Prop :=
  ∀ (s : State) (t p : Nat) (k : Kernel) (x : Path) (it : QItem),
    (s.ctlHeld t p 0x07 k x it → inMem (it.eff (wf it.word 39 14)) 4 4 cisBytes = true →
      s.sramBad (cisAddr t (it.eff (wf it.word 39 14))) 4 = false →
      ∃ u, exec (.ldc t p) s = .next u ∧ OnlyPath t p s u ∧
        u.path? t p = some
          { x.setC (wf it.word 9 6) (BitVec.ofNat 32 (s.numAt (cisAddr t (it.eff (wf it.word 39 14))) 4)) with ctl := none }) ∧
    (s.ctlHeld t p 0x08 k x it → inMem (it.eff (wf it.word 39 14)) 4 4 cisBytes = true →
      s.partBad (cisAddr t (it.eff (wf it.word 39 14))) 4 = true →
      ∃ u, exec (.stc t p) s = .next u ∧ SameBut [.tiles, .work] s u ∧
        u = (s.onPath t p fun y => { y with ctl := none }).kfault t p kfEcc it.bundle) ∧
    (s.ctlHeld t p 0x08 k x it → inMem (it.eff (wf it.word 39 14)) 4 4 cisBytes = true →
      s.partBad (cisAddr t (it.eff (wf it.word 39 14))) 4 = false →
      ∃ u, exec (.stc t p) s = .next u ∧ SameBut [.tiles, .mem] s u ∧ u.path? t p = some { x with ctl := none } ∧
        u.bytesAt (cisAddr t (it.eff (wf it.word 39 14))) 4 = toLE 4 (x.c (wf it.word 9 6)).toNat ∧
        KeepsOutside (cisAddr t (it.eff (wf it.word 39 14))) 4 s u)

/-- 07 R233: a bundle whose slots all have room enters the unit queues together, each instruction with C[AREG] as it
stands; without room nothing of it is dispatched. And 07 R237: a NOP does nothing. -/
def Obligations.BundlesDispatchWhole : Prop :=
  (∀ (s : State) (t p : Nat) (k : Kernel) (x : Path) (b : Bundle),
    s.dispatchable t p = some (k, x) → x.prog[x.pc]? = some b → x.bundleOk k b = true →
    (x.room b = true → wf b.ctl 5 0 ≠ 2 ∨ x.waited = true →
      ∃ u y, exec (.bundleDispatch t p) s = .next u ∧ OnlyPath t p s u ∧ u.path? t p = some y ∧ y.waited = false ∧
        y.mq = (if b.mat = 0 then x.mq
          else x.mq ++ [{ word := b.mat, areg := x.c (matAreg b.mat), bundle := x.pc, seq := x.mSeq }]) ∧
        y.vq = (if b.vec = 0 then x.vq
          else x.vq ++ [{ word := b.vec, areg := x.c (vecAreg b.vec), bundle := x.pc, seq := x.vSeq }]) ∧
        y.xq = (if b.mov = 0 then x.xq
          else x.xq ++ [{ word := b.mov, areg := x.c (movAreg b.mov), bundle := x.pc, seq := x.xSeq }]) ∧
        (wf b.ctl 5 0 = 0 ∨ wf b.ctl 5 0 = 2 → y.pc = (afterBundle x.pc x.loops).1 ∧ y.ctl = none)) ∧
    (x.room b = false → exec (.bundleDispatch t p) s = .next s)) ∧
  (∀ s : State, exec .nop s = .next s)

/-- 07 R244: WAIT holds its bundle until the counter is at least N, then subtracts N, in one indivisible step. The
bundle is in order, its tile issues, its pair owns the counter and its queues have room. And 07 R243, R246: SIGNAL
with UNITS = 0 adds 1 to a counter of its own tile at dispatch; one for another tile travels to it; one that covers
units waits. TOKEN_COUNT_ADD and REMOTE_SIGNAL add 1 to the counter of the addition they carry out. Other counters
keep their values. -/
def Obligations.TokensWaitAndSignal : Prop :=
  (∀ (s : State) (t p : Nat) (k : Kernel) (x : Path) (b : Bundle) (y : Tile),
    s.dispatchable t p = some (k, x) → x.prog[x.pc]? = some b → x.bundleOk k b = true → wf b.ctl 5 0 = 2 →
    x.waited = false → s.tiles[t]? = some y → y.tokOwner.getD (wf b.ctl 13 6) 16 = p → x.room b = true →
    (wf b.ctl 29 14 ≤ y.tokAt (wf b.ctl 13 6) →
      ∃ u z, exec (.waitTok t p) s = .next u ∧ OnlyTile t s u ∧ u.tiles[t]? = some z ∧
        z.tokAt (wf b.ctl 13 6) = y.tokAt (wf b.ctl 13 6) - wf b.ctl 29 14 ∧
        (∀ i, i ≠ wf b.ctl 13 6 → z.tokAt i = y.tokAt i) ∧ u.path? t p = some { x with waited := true }) ∧
    (y.tokAt (wf b.ctl 13 6) < wf b.ctl 29 14 →
      exec (.waitTok t p) s = .next s ∧ exec (.bundleDispatch t p) s = .next s)) ∧
  (∀ (s : State) (t p : Nat) (k : Kernel) (x : Path) (it : QItem) (y : Tile) (c : Core) (g : Signal),
    (s.ctlHeld t p 0x01 k x it → wf it.word 8 6 = 0 → k.tiles.getD (wf it.word 19 17) t = t → s.tiles[t]? = some y →
      y.tokAt (wf it.word 16 9) < 65535 →
      ∃ u z, exec (.signalTok t p) s = .next u ∧ OnlyTile t s u ∧ u.tiles[t]? = some z ∧
        z.tokAt (wf it.word 16 9) = y.tokAt (wf it.word 16 9) + 1 ∧
        (∀ i, i ≠ wf it.word 16 9 → z.tokAt i = y.tokAt i) ∧ u.path? t p = some { x with ctl := none }) ∧
    (s.ctlHeld t p 0x01 k x it → wf it.word 8 6 = 0 → k.tiles.getD (wf it.word 19 17) t ≠ t →
      ∃ u, exec (.signalTok t p) s = .next u ∧ u.work.remoteSig = s.work.remoteSig ++
        [{ src := t, dst := k.tiles.getD (wf it.word 19 17) t, token := wf it.word 16 9, kid := k.kid, pair := p,
           bundle := it.bundle }]) ∧
    (s.ctlHeld t p 0x01 k x it → wf it.word 8 6 ≠ 0 →
      ∃ u z, exec (.signalTok t p) s = .next u ∧ OnlyPath t p s u ∧ u.path? t p = some z ∧
        z.sigs.length = x.sigs.length + 1) ∧
    (s.path? t p = some x → s.core? t p = some c → s.kernelOn t = some k → x.sigs.find? (signalReady x c k.kid) = some g →
      k.tiles.getD g.ttile t = t → s.tiles[t]? = some y → y.tokAt g.token < 65535 →
      ∃ u z, exec (.tokenCountAdd t p) s = .next u ∧ OnlyTile t s u ∧ u.tiles[t]? = some z ∧
        z.tokAt g.token = y.tokAt g.token + 1 ∧ (∀ i, i ≠ g.token → z.tokAt i = y.tokAt i)) ∧
    (∀ r q, s.work.remoteSig = r :: q → s.tiles[r.dst]? = some y → y.tokAt r.token < 65535 →
      ∃ u z, exec .remoteSignal s = .next u ∧ SameBut [.tiles, .work] s u ∧ u.work.remoteSig = q ∧
        u.tiles[r.dst]? = some z ∧ z.tokAt r.token = y.tokAt r.token + 1 ∧ ∀ i, i ≠ r.token → z.tokAt i = y.tokAt i))

/-- 07 R259 to R262: a kernel whose paths have all dispatched END and whose writes are acknowledged ends OK; one with
recorded faults ends with the fault of the lowest tile, pair and bundle; one that stalls for t_stall ends with DEADLOCK, and
one whose run limit has expired with RUN_LIMIT, both as ABORTED; before that RUN_LIMIT has no effect. The command that
launched it, `rc`, has its reply; a kernel inside a job marks its step entry complete with the same status. It is then no
running kernel. What waited for its end goes on (`settle`). None of its remote writes is unacknowledged. -/
def Obligations.KernelsEnd : Prop :=
  ∀ (s : State) (kid : Nat) (k : Kernel), s.kernel? kid = some k →
    (s.kernelRemotes k.kid = false → ∀ rc, k.entry = none →
      (s.host.running.filter fun c => c.wait == .kernel k.kid) = [rc] →
      (k.faults = [] → s.kernelDone k = true → EndsKernel (exec (.kernelEnd kid) s) s k rc stOK 0 0) ∧
      (∀ f ∈ k.faults, (∀ g ∈ k.faults, g ≠ f → f.before g = true) →
        EndsKernel (exec (.kernelEnd kid) s) s k rc (faultStatus f.code f.status) f.result0 (k.faults.length - 1)) ∧
      (s.kernelStalled k = true → k.faults = [] → EndsKernel (exec (.deadlock kid) s) s k rc stAborted 0x11 0) ∧
      (k.startUs + 1000 * k.runLimitMs ≤ s.clk.nowUs → k.faults = [] →
        EndsKernel (exec (.runLimit kid) s) s k rc stAborted 0x12 0)) ∧
    (s.kernelRemotes k.kid = false → ∀ h i j, k.entry = some (h, i) → s.job? h = some j → i < j.entries.length →
      ∀ c st, (c, st) ∈ [(Instr.kernelEnd kid, stOK), (.deadlock kid, stAborted), (.runLimit kid, stAborted)] →
      k.faults = [] → (c = .kernelEnd kid → s.kernelDone k = true) → (c = .deadlock kid → s.kernelStalled k = true) →
      (c = .runLimit kid → k.startUs + 1000 * k.runLimitMs ≤ s.clk.nowUs) →
      ∃ (v : State) (j' : Job), exec c s = .next v.settle ∧ v.without k ∧ v.host = s.host ∧ v.job? h = some j' ∧
        j'.entries = modAt j.entries i (fun _ => .done st)) ∧
    (s.clk.nowUs < k.startUs + 1000 * k.runLimitMs → exec (.runLimit kid) s = .next s)

/-! ### Number formats (04) -/

/-- 04 R129, R130, R131: with u = 2^sh, T/u = m div 2^sh and rem = m mod 2^sh, each rounding mode rounds up to T + u or
gives T as its rule says. -/
def Obligations.RoundingModes : Prop :=
  ∀ (m sh r : Nat),
    (roundShift .rne r m sh).1 =
      (if 2 ^ sh < 2 * (m % 2 ^ sh) ∨ (2 * (m % 2 ^ sh) = 2 ^ sh ∧ m / 2 ^ sh % 2 = 1) then m / 2 ^ sh + 1 else m / 2 ^ sh) ∧
    (m % 2 ^ sh = 0 → (roundShift .rto r m sh).1 = m / 2 ^ sh) ∧
    (m % 2 ^ sh ≠ 0 → (roundShift .rto r m sh).1 = (if m / 2 ^ sh % 2 = 1 then m / 2 ^ sh else m / 2 ^ sh + 1)) ∧
    (roundShift .sr r m sh).1 = (if 2 ^ 16 ≤ m % 2 ^ sh * 2 ^ 16 / 2 ^ sh + r then m / 2 ^ sh + 1 else m / 2 ^ sh)

/-- 04 R133 (its first sentence): a conversion yields the exact value when the target format can represent it. For each
format and each code below its NaN and infinity codes, of either sign, converting the code's value under any mode gives
the code back, with no flag. -/
def Obligations.ConversionKeepsRepresentable : Prop :=
  ∀ (f : Fmt) (mode : RMode) (r : Nat) (sat neg : Bool) (mag : Nat), r < 2 ^ 16 → mag ≤ f.maxCode →
    conv f mode r sat (decodeF f (signCode f neg + mag)) =
      { code := signCode f neg + mag, invalid := false, overflow := false, underflow := false, inexact := false }

/-! ### Matrix cores (05) -/

/-- 05 R174, R181: what a write of a region of a slot leaves in accumulator memory, and that a cleared slot reads +0;
no other slot changes. And 05 R165, R170, R175 to R177: ODSET.A and ODSET.S write the fields of one operand
descriptor, SLOTCTX a slot's context, SLOT_CLEAR sets a slot to +0, SLOT_GIVE passes a slot to the vector engine and
SLOT_TAKE goes on once the core holds it. The core keeps everything else. -/
def Obligations.AccumulatorAndSlotRegisters : Prop :=
  (∀ (c : Core) (slot r0 c0 rows cols : Nat) (f : Nat → Nat → BitVec 32), r0 + rows ≤ 256 → c0 + cols ≤ 256 →
    ∀ slot' r q, r < 256 → q < 256 →
      (c.setAcc slot r0 c0 rows cols f).accAt slot' r q =
        (if slot' = slot ∧ r0 ≤ r ∧ r < r0 + rows ∧ c0 ≤ q ∧ q < c0 + cols then f (r - r0) (q - c0) else c.accAt slot' r q) ∧
      (c.clearAcc slot).accAt slot' r q = (if slot' = slot then 0 else c.accAt slot' r q)) ∧
  (∀ (s : State) (t p : Nat) (x : Path) (m : MIn),
    (s.matHeld t p 0x02 x m → m.q.eff (wf m.q.word 31 15 * 64) % 64 = 0 →
      MatrixDone (exec (.odsetA t p) s) s t p x { m.c with ods := modAt m.c.ods (wf m.q.word 10 6) fun o =>
        { o with base := m.q.eff (wf m.q.word 31 15 * 64), lines := wf m.q.word 40 32, strided := bitOf m.q.word.toNat 41,
                 stride := wf m.q.word 58 42 * 64 } }) ∧
    (s.matHeld t p 0x03 x m →
      MatrixDone (exec (.odsetS t p) s) s t p x { m.c with ods := modAt m.c.ods (wf m.q.word 10 6) fun o =>
        { o with scaleBase := m.q.eff (wf m.q.word 37 15), scaleStride := wf m.q.word 60 38 } }) ∧
    (s.matHeld t p 0x04 x m → m.slotFree = true → inMem m.desc 32 32 cisBytes = true →
      s.sramBad (cisAddr t m.desc) 32 = false → fld (s.bytesAt (cisAddr t m.desc) 32) 16 4 < 2 ^ 26 →
      zeroAt (s.bytesAt (cisAddr t m.desc) 32) 20 12 = true →
      MatrixDone (exec (.slotctx t p) s) s t p x (m.c.onCtx m.slot fun y =>
        { y with tensorId := BitVec.ofNat 32 (fld (s.bytesAt (cisAddr t m.desc) 32) 0 4),
                 rowBase := BitVec.ofNat 32 (fld (s.bytesAt (cisAddr t m.desc) 32) 4 4),
                 colBase := BitVec.ofNat 32 (fld (s.bytesAt (cisAddr t m.desc) 32) 8 4),
                 kgBase := BitVec.ofNat 32 (fld (s.bytesAt (cisAddr t m.desc) 32) 12 4),
                 x64Addr := fld (s.bytesAt (cisAddr t m.desc) 32) 16 4 })) ∧
    (s.matHeld t p 0x05 x m → m.slotFree = true →
      MatrixDone (exec (.slotClear t p) s) s t p x ((m.c.clearAcc m.slot).onCtx m.slot fun y =>
        { y with groups := 0, spillBound := none, spilled := false })) ∧
    (s.matHeld t p 0x0A x m → m.slotFree = true →
      MatrixDone (exec (.slotGive t p) s) s t p x { m.c with given := modAt m.c.given m.slot fun _ => true }) ∧
    (s.matHeld t p 0x0B x m → m.c.given.getD m.slot false = false →
      MatrixDone (exec (.slotTake t p) s) s t p x m.c))

/-- 05 R168, R172, R173: an MMA that raises no fault joins the MMAs in flight, at most four, with the operand descriptors
as they stand; the next MMA on its slot must name its spill interval, unless it clears the slot, else it raises
SPILL_MISMATCH and joins nothing. -/
def Obligations.MmaIssues : Prop :=
  ∀ (s : State) (t p : Nat) (x : Path) (m : MIn), s.matHeld t p 0x01 x m → m.c.given.getD m.slot false = false →
    m.c.runs.length < 4 → m.mmaFault = none →
    ∃ r : MmaRun, r.slot = m.slot ∧ r.kid = m.k.kid ∧ r.j = 0 ∧ r.seq = m.q.seq ∧
      r.oda = m.c.ods.getD (wf m.q.word 14 10) OpDesc.zero ∧ r.odb = m.c.ods.getD (wf m.q.word 19 15) OpDesc.zero ∧
      r.kExt = wf m.q.word 39 20 ∧ r.fmt = wf m.q.word 42 40 ∧ r.rmode = wf m.q.word 44 43 ∧
      r.spill = wf m.q.word 60 45 ∧ r.clear = bitOf m.q.word.toNat 61 ∧
      MatrixDone (exec (.mma t p) s) s t p x { m.c with runs := m.c.runs ++ [r] } ∧
      ∀ n : MIn, n.c = { m.c with runs := m.c.runs ++ [r] } → n.slot = m.slot → bitOf n.q.word.toNat 61 = false →
        n.mmaFault = none → wf n.q.word 60 45 = r.spill

/-- 05 R170, R173, R190 to R192: the next K-group in turn adds into its slot and counts in GROUPS; a K-group without a
fault of the array passes both checks; on a mismatch the slot keeps its values and one CHECKSUM_FAULT is counted. `r` is
the MMA whose turn it is; it does not spill and this is not a first group with CLEAR. The first K-group that passes binds
SPILL_BOUND. -/
def Obligations.KGroupAddsOrRetries : Prop :=
  ∀ (s : State) (t p : Nat) (c : Core) (k : Kernel) (r : MmaRun) (f : Fmt),
    s.core? t p = some c → s.kernelOn t = some k → c.fenced = false →
    (nextSlot c.rr c.runs).bind (fun n => c.runs.find? fun y => y.slot == n) = some r → fmtOf r.fmt = some f →
    r.spill = 0 → (r.j = 0 → r.clear = false) →
    s.groupBad t p r f (groupSize f * r.j) (min r.kExt (groupSize f * (r.j + 1))) = false →
    (∃ u c', exec (.kGroup t p []) s = .next u ∧ SameBut [.tiles] s u ∧ u.core? t p = some c' ∧ c'.rr = r.slot ∧
      c'.ods = c.ods ∧ c'.given = c.given ∧
      c'.acc = (c.setAcc r.slot 0 0 r.oda.lines r.odb.lines fun row col =>
        s.groupElem t p k r f (c.ctxAt r.slot) [] (c.accAt r.slot row col) row col).acc ∧
      c'.ctx = modAt c.ctx r.slot (fun y =>
        { y with groups := y.groups + 1, spillBound := if r.j = 0 then some r.spill else y.spillBound }) ∧
      (r.groups ≤ r.j + 1 → c'.runs = dropFirst (fun y => y.slot == r.slot) c.runs) ∧
      (r.j + 1 < r.groups → c'.runs = modFirst (fun y => y.slot == r.slot) (fun y => { y with j := y.j + 1 }) c.runs)) ∧
    (∀ l, s.mismatch t p r f l = true →
      ∃ u c', exec (.kGroup t p l) s = .next u ∧ SameBut [.tiles, .work] s u ∧ u.core? t p = some c' ∧ c'.acc = c.acc ∧
        c'.ctx = c.ctx ∧ c'.checksumFaults = sat32 (c.checksumFaults + 1)) ∧
    (∀ row col, row < r.oda.lines → col < r.odb.lines →
      s.mismatch t p r f [.round row col] = true ∧
      ∀ e : Int, e % (2 ^ 61 - 1) ≠ 0 → s.mismatch t p r f [.sum row col e] = true)

/-- 05 R174, R177, R181, R195: SLOT_LOAD writes a region of a slot and no byte of memory; SLOT_STORE writes the raw bits
of a region, DRAIN and DRAIN_ADD the converted region, its scales, its record and its row statistics, and MSTAT 32
bytes, and no byte outside what each names changes; the drains leave the slot at +0. No MMA locks the bytes stored to,
and no store changes part of a word with a double-bit error. -/
def Obligations.MatrixMemoryInstructions : Prop :=
  ∀ (s : State) (t p : Nat) (x : Path) (m : MIn) (d : SlotAcc) (b : Bytes),
    b = s.bytesAt (cisAddr t m.desc) 32 → d = slotAcc b → inMem m.desc 32 32 cisBytes = true →
    (s.matHeld t p 0x06 x m → s.sramBad (cisAddr t m.desc) 32 = false → m.slotFree = true → accOk .load b = true →
      rowsFit d.addr d.pitch d.rows ((if d.fmt = 4 then 4 else 2) * d.cols) (unitSize d.dest) = true →
      (∀ r, r < d.rows →
        s.sramBad (unitAddr t p d.dest (d.addr + r * d.pitch)) ((if d.fmt = 4 then 4 else 2) * d.cols) = false) →
      MatrixDone (exec (.slotLoad t p) s) s t p x ((m.c.setAcc m.slot 0 0 d.rows d.cols fun r q =>
        if d.fmt = 4 then BitVec.ofNat 32 (s.numAt (unitAddr t p d.dest (d.addr + r * d.pitch + 4 * q)) 4)
        else toH (decodeF .s16 (s.numAt (unitAddr t p d.dest (d.addr + r * d.pitch + 2 * q)) 2))).onCtx m.slot fun y =>
        { y with groups := 0, spillBound := none, spilled := false })) ∧
    (s.matHeld t p 0x07 x m → s.sramBad (cisAddr t m.desc) 32 = false → m.slotFree = true → accOk .store b = true →
      (d.dest = true ∨ ∀ a n, s.lockedBy t p a n = none) →
      rowsFit d.addr d.pitch d.rows (4 * d.cols) (unitSize d.dest) = true → s.accBad t p m.slot d.rows d.cols = false →
      (∀ a n, s.partBad a n = false) →
      ∃ u, exec (.slotStore t p) s = .next u ∧ SameBut [.tiles, .mem] s u ∧ u.core? t p = some m.c ∧
        u.path? t p = some { x with mq := x.mq.drop 1 } ∧
        (∀ a, (∀ r, r < d.rows → a < unitAddr t p d.dest (d.addr + r * d.pitch) ∨
            unitAddr t p d.dest (d.addr + r * d.pitch) + 4 * d.cols ≤ a) → u.byteAt a = s.byteAt a) ∧
        (d.rows = 1 ∨ 4 * d.cols ≤ d.pitch → ∀ r, r < d.rows →
          u.bytesAt (unitAddr t p d.dest (d.addr + r * d.pitch)) (4 * d.cols) =
            (List.range d.cols).flatMap fun q => toLE 4 (m.c.accAt m.slot r q).toNat)) ∧
    (∀ i op use f mode, (i, op, use) ∈ [(Instr.drain t p, 0x08, AccUse.drain), (Instr.drainAdd t p, 0x09, AccUse.drainAdd)] →
      s.matHeld t p op x m → s.sramBad (cisAddr t m.desc) 32 = false → m.slotFree = true →
      (d.dest = true ∨ ∀ a n, s.lockedBy t p a n = none) →
      s.drainFault t p m d (use == AccUse.drainAdd) (accOk use b) = none → (∀ a n, s.partBad a n = false) → fmtOf d.fmt = some f →
      rmodeOf d.omode = some mode →
      ∃ u c', exec i s = .next u ∧ SameBut [.tiles, .mem] s u ∧ u.path? t p = some { x with mq := x.mq.drop 1 } ∧
        u.core? t p = some c' ∧
        { c' with nonfiniteOut := m.c.nonfiniteOut } = (m.c.clearAcc m.slot).onCtx m.slot (fun y =>
          { y with groups := 0, spillBound := none, spilled := false }) ∧
        (∀ a, (∀ r, r < d.rows → a < unitAddr t p d.dest (d.addr + r * d.pitch) ∨
            unitAddr t p d.dest (d.addr + r * d.pitch) + elemBytes f d.cols ≤ a) →
          (f.isBlock = true → (a < unitAddr t p d.dest d.scaleAddr ∨
            unitAddr t p d.dest d.scaleAddr + d.rows * (d.cols / 32) ≤ a) ∧
            (a < cisAddr t d.record ∨ cisAddr t d.record + 16 ≤ a)) →
          (d.stats ≠ 0 → a < cisAddr t d.statsAddr ∨ cisAddr t d.statsAddr + 8 * d.rows ≤ a) →
          u.byteAt a = s.byteAt a) ∧
        (d.rows = 1 → f.isBlock = false → d.stats = 0 →
          u.bytesAt (unitAddr t p d.dest d.addr) (elemBytes f d.cols) =
            (drainRow f mode d m.k.rng (m.c.ctxAt m.slot) 0
              ((List.range d.cols).map fun q => s.drainVal t m.c m.slot d (use == AccUse.drainAdd) 0 q)).1)) ∧
    (s.matHeld t p 0x0C x m → m.c.runs = [] →
      ∃ u, exec (.mstat t p) s = .next u ∧ SameBut [.tiles, .mem] s u ∧ u.core? t p = some m.c ∧
        u.path? t p = some { x with mq := x.mq.drop 1 } ∧ KeepsOutside (cisAddr t m.desc) 32 s u ∧
        u.bytesAt (cisAddr t m.desc) 32 = faultRecord t p s.clk.nowUs m.c)

/-! ### Vector engines (06) -/

/-- 06 R199: a packed S16 element (r, c) lies in the H32 position (r, c div 2), in bits [15:0] when c is even and in bits
[31:16] when c is odd. -/
def Obligations.PackedElementPlaces : Prop :=
  ∀ (e : Engine) (v r c : Nat),
    (c % 2 = 0 → e.s v r c = (e.h v r (c / 2)).extractLsb' 0 16) ∧ (c % 2 = 1 → e.s v r c = (e.h v r (c / 2)).extractLsb' 16 16)

/-- 06 R201, R203, R204, R209 to R212, R214 to R216: an element-wise instruction that raises no fault writes the elements
that are neither tail nor masked off, writes +0 to masked-off ones under ZM, keeps every other bit of its register and
every other register, mask and scalar, and ORs the flags of the written elements into FLAGS. -/
def Obligations.VectorElementwise : Prop :=
  ∀ (s : State) (t p : Nat) (x : Path) (v : VIn), v.regFault = none →
    ∀ i op g, (i, op, g) ∈ vectorElements t p → s.vecHeld t p op x v →
      ∃ e, VectorDone (exec i s) s t p x e ∧ v.e.keepsBut e v.vd ∧
        e.flags = v.e.flags ||| orFlags ((v.e.live v.packed v.mask).map fun y => (g v y.1 y.2).2) ∧
        ∀ r c, r < 16 → c < v.width → e.elem v.packed v.vd r c =
          match v.e.fate v.mask v.zm r c with
          | .keep => v.e.elem v.packed v.vd r c
          | .zero => 0
          | .write => (g v r c).1 % 2 ^ (if v.packed then 16 else 32)

/-- 06 R200, R205, R211: a compare or mask operation writes bits of its mask tile for the elements that are neither tail
nor masked off, 0 for masked-off ones under ZM; a write of M0 is ignored and M0 reads all ones; other masks, registers,
scalars and FLAGS stay. -/
def Obligations.VectorMaskWrites : Prop :=
  ∀ (s : State) (t p : Nat) (x : Path) (v : VIn), v.regFault = none →
    ∀ i op g, (i, op, g) ∈ vectorMasks t p → s.vecHeld t p op x v →
      ∃ e, VectorDone (exec i s) s t p x e ∧ { e with m := v.e.m } = v.e ∧
        (∀ k r c, k < 8 → k ≠ v.vd % 8 → r < 16 → c < 64 → e.mask k r c = v.e.mask k r c) ∧
        ∀ r c, r < 16 → c < 64 → e.mask (v.vd % 8) r c =
          (if v.vd % 8 = 0 then true
           else if v.packed = false ∧ 32 ≤ c then v.e.mask (v.vd % 8) r c
           else match v.e.fate v.mask v.zm r c with
             | .keep => v.e.mask (v.vd % 8) r c
             | .zero => false
             | .write => g v r c)

/-- 06 R213: RSUM and RMAX reduce columns 0 to LCOLS - 1 of each row in a fixed binary tree into column 0; the mask
bit of (r, 0) and ZM govern the write, and columns 1 to 31 keep their bits. And 06 R222, R223; 07 R241: CVT widens
packed S16 columns into H32 columns without rounding, and narrows H32 columns into packed ones under the named mode, a
scalar's bits [31:16] where the source is one (R241); it changes its register and FLAGS alone. -/
def Obligations.VectorReductionsAndConversion : Prop :=
  (∀ (s : State) (t p : Nat) (x : Path) (v : VIn), v.regFault = none →
    ∀ i op node, (i, op, node) ∈ [(Instr.rsum t p, 0x20, sumNode), (.rmax t p, 0x21, fun a b => (minMax .h32 true a b, 0))] →
      s.vecHeld t p op x v →
      ∃ e, VectorDone (exec i s) s t p x e ∧ v.e.keepsBut e v.vd ∧
        (∀ r c, r < 16 → c < 32 → c ≠ 0 → e.h v.vd r c = v.e.h v.vd r c) ∧
        ∀ r, r < 16 → e.h v.vd r 0 =
          (if v.e.lrows ≤ r then v.e.h v.vd r 0
           else if v.e.mask v.mask r 0 then
             BitVec.ofNat 32 (copyElem .h32 (treeFold (fun (a b : Nat × BitVec 5) =>
               ((node a.1 b.1).1, a.2 ||| b.2 ||| (node a.1 b.1).2)) (0, 0)
               ((List.range v.e.lcols).map fun c => (v.a r c, 0))).1).1
           else if v.zm then 0 else v.e.h v.vd r 0)) ∧
  (∀ (s : State) (t p : Nat) (x : Path) (v : VIn) (mode : RMode), rmodeOf v.rmode = some mode → s.vecHeld t p 0x30 x v →
    ∃ e, VectorDone (exec (.cvt t p) s) s t p x e ∧ v.e.keepsBut e v.vd ∧
      (v.packed = false → e.flags = v.e.flags ∧ ∀ r c, r < 16 → c < 32 → e.h v.vd r c =
        match v.e.fate v.mask v.zm r (32 * v.half + c) with
        | .keep => v.e.h v.vd r c
        | .zero => 0
        | .write => toH (decodeF .s16 (v.e.src true v.va v.moda r (32 * v.half + c)))) ∧
      (v.packed = true → ∀ r c, r < 16 → c < 64 → (e.s v.vd r c).toNat =
        if c < 32 * v.half ∨ 32 * v.half + 32 ≤ c then (v.e.s v.vd r c).toNat
        else match v.e.fate v.mask v.zm r c with
          | .keep => (v.e.s v.vd r c).toNat
          | .zero => 0
          | .write => (conv .s16 mode (v.rnd mode r c) v.sat
              (decodeF .h32 (if v.moda = 3 then v.e.src true v.va 3 r (c - 32 * v.half) * 2 ^ 16
                else v.e.src false v.va v.moda r (c - 32 * v.half)))).code % 2 ^ 16))

/-- 06 R202, R218: SETLEN within 1 to 16 and 1 to 64 sets both lengths, and outside them leaves them and records
BAD_LENGTH; FGET copies FLAGS into bits [4:0] of a scalar, FCLR clears FLAGS. -/
def Obligations.VectorSetup : Prop :=
  ∀ (s : State) (t p : Nat) (x : Path) (v : VIn),
    (s.vecHeld t p 0x48 x v → 1 ≤ wf v.q.word 12 8 → wf v.q.word 12 8 ≤ 16 → 1 ≤ wf v.q.word 19 13 → wf v.q.word 19 13 ≤ 64 →
      VectorDone (exec (.setlen t p) s) s t p x { v.e with lrows := wf v.q.word 12 8, lcols := wf v.q.word 19 13 }) ∧
    (s.vecHeld t p 0x48 x v → (wf v.q.word 12 8 = 0 ∨ 16 < wf v.q.word 12 8 ∨ wf v.q.word 19 13 = 0 ∨ 64 < wf v.q.word 19 13) →
      ∃ u, exec (.setlen t p) s = .next u ∧ SameBut [.tiles, .work] s u ∧ u.engine? t p = some v.e ∧
        u = (s.popV t p).kfault t p kfBadLength v.q.bundle) ∧
    (s.vecHeld t p 0x4A x v →
      VectorDone (exec (.fget t p) s) s t p x { v.e with sc := modAt v.e.sc (wf v.q.word 11 8) fun _ => v.e.flags.setWidth 32 }) ∧
    (s.vecHeld t p 0x4B x v → VectorDone (exec (.fclr t p) s) s t p x { v.e with flags := 0 })

/-- 06 R219, R221, R224; 07 R658: loads of the vector engine write their register or scalar alone; no byte of memory
and no accumulator changes. The bytes lie in their memory and hold no double-bit error. And 06 R204, R219 to R224; 07
R658: stores of the vector engine. VST and STS write the bytes of their elements and no other byte; VSTB writes its
rows, their scales and its record and no other byte; SST writes its region of a held slot; SLOT_RETURN gives the slot
back. No MMA locks the bytes stored to and no store changes part of a word with a double-bit error. The values that VLDB
widens are stated for every element, and the bytes that VSTB writes for one live row to the basin. Which fault a descriptor
outside the cistern raises is a reading of the model's (log entry 57). -/
def Obligations.VectorMemoryInstructions : Prop :=
  (∀ (s : State) (t p : Nat) (x : Path) (v : VIn),
    (s.vecHeld t p 0x38 x v → v.memFault = none →
      (∀ y ∈ v.memLive, s.sramBad (unitAddr t p v.cis (v.elemOff y.1 y.2)) v.esz = false) →
      ∃ e, VectorDone (exec (.vld t p) s) s t p x e ∧ v.e.keepsBut e (wf v.q.word 12 8) ∧ e.flags = v.e.flags ∧
        ∀ r c, r < 16 → c < (if v.mfmt = 1 then 64 else 32) → e.elem (v.mfmt == 1) (wf v.q.word 12 8) r c =
          match v.e.fate v.mmask v.mzm r c with
          | .keep => v.e.elem (v.mfmt == 1) (wf v.q.word 12 8) r c
          | .zero => 0
          | .write => if v.mfmt = 2 then s.numAt (unitAddr t p v.cis (v.elemOff r c)) 2 * 2 ^ 16
              else if v.mfmt = 0 then s.numAt (unitAddr t p v.cis (v.elemOff r c)) 4
              else s.numAt (unitAddr t p v.cis (v.elemOff r c)) 2) ∧
    (∀ b d f, b = s.bytesAt (cisAddr t v.desc) 32 → d = slotAcc b → fmtOf d.fmt = some f → s.vecHeld t p 0x3A x v →
      v.e.lcols ≤ 32 → v.desc + 32 ≤ cisBytes → (∀ a n, s.sramBad a n = false) → accOk .vldb b = true →
      v.blkFit d (elemBytes f v.e.lcols) = true →
      ∃ e, VectorDone (exec (.vldb t p) s) s t p x e ∧ v.e.keepsBut e (wf v.q.word 12 8) ∧
        ∀ r c, r < 16 → c < 32 → e.h (wf v.q.word 12 8) r c =
          match v.e.fate v.dmask v.dzm r c with
          | .keep => v.e.h (wf v.q.word 12 8) r c
          | .zero => 0
          | .write => BitVec.ofNat 32 (convRne .h32 (scaled f
              (if f = .s4 then
                (s.byteAt (unitAddr t p d.dest (d.addr + r * d.pitch + c * f.width / 8))).toNat / 16 ^ (c % 2) % 16
               else (s.byteAt (unitAddr t p d.dest (d.addr + r * d.pitch + c * f.width / 8))).toNat)
              (s.byteAt (unitAddr t p d.dest (d.scaleAddr + r))).toNat)).code) ∧
    (∀ c, s.vecHeld t p 0x40 x v → v.e.lcols ≤ 32 → s.core? t p = some c → c.given.getD v.slot false = true →
      s.regionBad t p v.slot v.row0 v.col0 v.e.lrows v.e.lcols = false →
      ∃ e, VectorDone (exec (.sld t p) s) s t p x e ∧ v.e.keepsBut e (wf v.q.word 12 8) ∧ e.flags = v.e.flags ∧
        ∀ r q, r < 16 → q < 32 → e.h (wf v.q.word 12 8) r q =
          if v.e.tail r q then v.e.h (wf v.q.word 12 8) r q else c.accAt v.slot (v.row0 + r) (v.col0 + q)) ∧
    (s.vecHeld t p 0x4C x v → v.soff + 4 ≤ unitSize v.smem → s.sramBad (unitAddr t p v.smem v.soff) 4 = false →
      VectorDone (exec (.lds t p) s) s t p x { v.e with
        sc := modAt v.e.sc (wf v.q.word 11 8) fun _ => BitVec.ofNat 32 (s.numAt (unitAddr t p v.smem v.soff) 4) }) ∧
    (s.vecHeld t p 0x49 x v → v.desc + 12 ≤ cisBytes → s.sramBad (cisAddr t v.desc) 12 = false →
      VectorDone (exec (.vctx t p) s) s t p x { v.e with
        tensorId := BitVec.ofNat 32 (fld (s.bytesAt (cisAddr t v.desc) 12) 0 4),
        rowBase := BitVec.ofNat 32 (fld (s.bytesAt (cisAddr t v.desc) 12) 4 4),
        colBase := BitVec.ofNat 32 (fld (s.bytesAt (cisAddr t v.desc) 12) 8 4) })) ∧
  (∀ (s : State) (t p : Nat) (x : Path) (v : VIn),
    (∀ a n, s.partBad a n = false) →
    (s.vecHeld t p 0x39 x v → v.memFault = none → (v.cis = true ∨ ∀ a n, s.lockedBy t p a n = none) →
      ∃ u, exec (.vst t p) s = .next u ∧ SameBut [.tiles, .mem] s u ∧ u.engine? t p = some v.e ∧
        u.path? t p = some { x with vq := x.vq.drop 1 } ∧
        (∀ a, (∀ y ∈ v.memLive, a < unitAddr t p v.cis (v.elemOff y.1 y.2) ∨
          unitAddr t p v.cis (v.elemOff y.1 y.2) + v.esz ≤ a) → u.byteAt a = s.byteAt a) ∧
        (v.esz * v.e.lcols ≤ v.pitch ∨ v.e.lrows = 1 → ∀ y ∈ v.memLive,
          u.bytesAt (unitAddr t p v.cis (v.elemOff y.1 y.2)) v.esz =
            toLE v.esz (v.e.elem (v.mfmt == 1) (wf v.q.word 12 8) y.1 y.2))) ∧
    (∀ b d f mode, b = s.bytesAt (cisAddr t v.desc) 32 → d = slotAcc b → fmtOf d.fmt = some f →
      rmodeOf d.omode = some mode → s.vecHeld t p 0x3B x v → v.desc + 32 ≤ cisBytes → s.sramBad (cisAddr t v.desc) 32 = false →
      accOk .vstb b = true → v.e.lcols = 32 → v.blkFit d (elemBytes f 32) = true → d.record + 16 ≤ cisBytes →
      s.sramBad (cisAddr t d.record) 16 = false → (d.dest = true ∨ ∀ a n, s.lockedBy t p a n = none) →
      ∃ u e, exec (.vstb t p) s = .next u ∧ SameBut [.tiles, .mem] s u ∧ u.engine? t p = some e ∧
        { e with flags := v.e.flags } = v.e ∧ u.path? t p = some { x with vq := x.vq.drop 1 } ∧
        (∀ a, (∀ r, r < v.e.lrows → (a < unitAddr t p d.dest (d.addr + r * d.pitch) ∨
            unitAddr t p d.dest (d.addr + r * d.pitch) + elemBytes f 32 ≤ a) ∧ a ≠ unitAddr t p d.dest (d.scaleAddr + r)) →
          (a < cisAddr t d.record ∨ cisAddr t d.record + 16 ≤ a) → u.byteAt a = s.byteAt a) ∧
        ∀ w, w = blockConv f mode d.sat d.scaling false d.e8
            ((List.range 32).map fun c => if v.e.mask v.dmask 0 c then some (hval (v.e.h (wf v.q.word 12 8) 0 c)) else none)
            ((List.range 32).map fun c => v.rnd mode 0 c) →
          v.e.lrows = 1 → d.dest = false → (d.scaleAddr < d.addr ∨ d.addr + elemBytes f 32 ≤ d.scaleAddr) →
          u.bytesAt (basAddr t p d.addr) (elemBytes f 32) = packCodes f (w.elems.map (·.code)) ∧
          u.byteAt (basAddr t p d.scaleAddr) = BitVec.ofNat 8 w.e8 ∧
          u.bytesAt (cisAddr t d.record) 16 = w.record.apply (s.bytesAt (cisAddr t d.record) 16) ∧
          e.flags = v.e.flags ||| orFlags (w.elems.map Rnd.flags)) ∧
    (∀ c, s.vecHeld t p 0x41 x v → v.e.lcols ≤ 32 → s.core? t p = some c → c.given.getD v.slot false = true →
      ∃ u, exec (.sst t p) s = .next u ∧ SameBut [.tiles, .mem] s u ∧ u.mem.cells = s.mem.cells ∧ u.engine? t p = some v.e ∧
        u.path? t p = some { x with vq := x.vq.drop 1 } ∧
        u.core? t p = some (c.setAcc v.slot v.row0 v.col0 v.e.lrows v.e.lcols fun r q => v.e.h (wf v.q.word 12 8) r q)) ∧
    (∀ c, s.vecHeld t p 0x42 x v → s.core? t p = some c → c.given.getD v.slot false = true →
      ∃ u, exec (.slotReturn t p) s = .next u ∧ OnlyPair t p s u ∧ u.path? t p = some { x with vq := x.vq.drop 1 } ∧
        u.engine? t p = some v.e ∧ u.core? t p = some { c with given := modAt c.given v.slot fun _ => false }) ∧
    (s.vecHeld t p 0x4D x v → v.soff + 4 ≤ unitSize v.smem → (v.smem = true ∨ ∀ a n, s.lockedBy t p a n = none) →
      ∃ u, exec (.sts t p) s = .next u ∧ SameBut [.tiles, .mem] s u ∧ u.engine? t p = some v.e ∧
        u.path? t p = some { x with vq := x.vq.drop 1 } ∧ KeepsOutside (unitAddr t p v.smem v.soff) 4 s u ∧
        u.bytesAt (unitAddr t p v.smem v.soff) 4 = toLE 4 (v.e.sc.getD (wf v.q.word 11 8) 0).toNat))

/-- 06 R232; 10 R330: a double-bit error in a tile register, mask or scalar that a vector instruction reads ends the kernel
with UNCORRECTABLE (ECC_UNCORRECTABLE is recorded); single-bit errors in them are corrected and counted in REG_ECC_CE, and
the instruction does what it does without them.
How long an error stays is the model's choice (log entry 109). -/
def Obligations.VectorRegisterErrors : Prop :=
  ∀ (s : State) (t p : Nat) (x : Path) (v : VIn), ∀ i op, (i, op) ∈ vectorRows t p → s.vecFront t p op x v →
    (v.e.regBad v.q.word = true →
      ∃ u, exec i s = .next u ∧ SameBut [.tiles, .work] s u ∧ u.engine? t p = some v.e ∧
        u = (s.popV t p).kfault t p kfEcc v.q.bundle ∧ faultStatus kfEcc 0 = stUncorrectable) ∧
    (v.e.regBad v.q.word = false → v.e.regSingles v.q.word ≠ [] →
      exec i s = exec i (s.regCorrect t p v.e v.q.word) ∧
      (s.regCorrect t p v.e v.q.word).engine? t p = some (v.e.regFixed v.q.word) ∧
      ∀ y z, s.tiles[t]? = some y → (s.regCorrect t p v.e v.q.word).tiles[t]? = some z →
        z.gov.regEccCe = min (y.gov.regEccCe + (v.e.regSingles v.q.word).length) 0xFFFFFFFF)

/-! ### UPDATE and the norm ledger (06) -/

/-- 06 R226 to R230: over memory without errors, UPDATE with a descriptor in order writes the planes of the newer buffer
(and the partial entry, with LEDGER), no other byte, and gathers flags; LEDGER_FOLD writes the module entry behind the
partials once stripe 0 ran here and all are present, and forgets them. -/
def Obligations.UpdateAndLedger : Prop :=
  ∀ (s : State) (t p : Nat) (x : Path) (v : VIn) (b : Bytes) (d : Upd), s.mem.lineErr = [] →
    (s.vecHeld t p 0x50 x v → b = s.bytesAt (cisAddr t v.desc) 128 →
      d = { updOf b with skip := (updOf b).skip || (v.k.entry.bind fun e => s.job? e.1).any (·.skip) } →
      v.desc + 128 ≤ cisBytes → s.sramBad (cisAddr t v.desc) 128 = false → updOk b = true → d.stateIn % 512 = 0 →
      d.stateOut % 512 = 0 → d.ledgerAt % 64 = 0 →
      ((s.tenant? v.k.tenant).any fun tn => d.ranges.all fun r => inPart tn false r.2.2 r.1 r.2.1 && decide (r.1 < hbmEnd)) = true →
      (∀ r ∈ d.ranges, hbmAny s.groupOff r.1 r.2.1 = false ∧ hbmAny (fun g => !s.groupReady g) r.1 r.2.1 = false) →
      ∃ u e, exec (.update t p) s = .next u ∧ SameBut [.tiles, .mem, .fab] s u ∧
        u.path? t p = some { x with vq := x.vq.drop 1 } ∧ u.engine? t p = some e ∧ { e with flags := v.e.flags } = v.e ∧
        (∀ a, (∀ r ∈ d.ranges, r.2.2 = true → a < r.1 ∨ r.1 + r.2.1 ≤ a) → u.byteAt a = s.byteAt a) ∧
        (d.ledger = false → ∀ i w, (s.updElems d)[i]? = some w →
          u.bytesAt (d.stateOut + 4 * i) 4 = toLE 4 w.w1.toNat ∧
          u.bytesAt (d.stateOut + 4 * d.p + 4 * i) 4 = toLE 4 w.m1.toNat ∧
          (d.adamw = true → u.bytesAt (d.stateOut + 8 * d.p + 4 * i) 4 = toLE 4 w.v1.toNat))) ∧
    (∀ y l, s.tiles[t]? = some y →
      y.ledger.find? (fun l => l.present.contains 0 &&
        (List.range l.stripes).all fun i => s.tiles.any fun z => z.ledger.any fun m => m.same l && m.present.contains i) = some l →
      l.addr + 64 * l.stripes + 64 ≤ hbmEnd →
      ∃ u, exec (.ledgerFold t) s = .next u ∧ SameBut [.tiles, .mem, .fab] s u ∧
        u.bytesAt (l.addr + 64 * l.stripes) 64 = s.foldLedger l ∧ KeepsOutside (l.addr + 64 * l.stripes) 64 s u ∧
        ∀ z ∈ u.tiles, ∀ m ∈ z.ledger, m.same l = false)

/-! ### Movers and the move slot (02, 07) -/

/-- 02 R83: MOVE, FILL and COMPARE on a disabled channel, and on one that stops, and CHANNEL_ENABLE and CHANNEL_DISABLE on a
channel already in the requested state. The commands' parameters are in order and the channel is not being reset. -/
def Obligations.ChannelInTheWrongState : Prop :=
  ∀ (s : State) (att ring : Nat) (rc : RunCmd) (c : Cmd) (s1 : State) (x : Chan), s1.nameChan c = stOK →
    s1.chan? (c.f 16 1) (c.f 17 1) = some x → s1.chanBlocked (c.f 16 1) (c.f 17 1) = false →
    (∀ st, st = (if x.stopping then stBusy else stNoResource) → x.stopping = true ∨ x.enabled = false →
      (s.starts 0x0201 .inline att ring rc c s1 → c.z 18 6 = true → c.z 36 28 = true → 1 ≤ c.f 32 4 → c.f 32 4 ≤ 65536 →
        Replies (exec (.moveCmd att ring) s) s1 rc st 0 0 0) ∧
      (s.starts 0x0202 .inline att ring rc c s1 → c.z 19 5 = true → c.z 48 16 = true → c.f 18 1 ∈ [1, 2, 4, 8] →
        1 ≤ c.f 32 8 → c.f 32 8 ≤ 2 ^ 40 → Replies (exec (.fillCmd att ring) s) s1 rc st 0 0 0) ∧
      (s.starts 0x0203 .inline att ring rc c s1 → c.z 18 6 = true → c.z 48 16 = true → 1 ≤ c.f 40 8 → c.f 40 8 ≤ 2 ^ 40 →
        Replies (exec (.compareCmd att ring) s) s1 rc st 0 0 0)) ∧
    (x.stopping = false →
      (s.starts 0x0205 .inline att ring rc c s1 → x.enabled = true → c.z 18 1 = true → c.z 20 44 = true →
        (8 ≤ c.f 19 1 ∧ c.f 19 1 < 16) ∨ c.f 19 1 = 0xFF → Replies (exec (.channelEnable att ring) s) s1 rc stOK 0 0 0) ∧
      (s.starts 0x0206 .inline att ring rc c s1 → x.enabled = false → c.z 18 46 = true →
        Replies (exec (.channelDisable att ring) s) s1 rc stOK 0 0 0))

/-- 02 R36, R71, R82, R656: MOVE, FILL and COMPARE in order on an enabled channel queue their descriptors on it and stay in
flight; those of FILL and COMPARE carry LENGTH bytes in all. CHANNEL_ENABLE and CHANNEL_DISABLE change that channel alone;
FENCE replies once no earlier command of its ring runs. -/
def Obligations.MoverCommands : Prop :=
  ∀ (s : State) (att ring : Nat) (rc : RunCmd) (c : Cmd) (s1 : State),
    (s.starts 0x0204 .inline att ring rc c s1 → c.z 16 48 = true →
      (s1.ringBusy c.att ring = false → Replies (exec (.fenceCmd att ring) s) s1 rc stOK 0 0 0) ∧
      (s1.ringBusy c.att ring = true → Waits (exec (.fenceCmd att ring) s) s1 rc .fence)) ∧
    ∀ mv ch x, mv = c.f 16 1 → ch = c.f 17 1 → s1.nameChan c = stOK → s1.chan? mv ch = some x →
      s1.chanBlocked mv ch = false → x.stopping = false →
      (s.starts 0x0201 .inline att ring rc c s1 → x.enabled = true → c.z 18 6 = true → c.z 36 28 = true → 1 ≤ c.f 32 4 →
        c.f 32 4 ≤ 65536 → ((s1.tenant? c.tenant).any fun t => inPart t false true (c.f 24 8) (64 * c.f 32 4)) = true →
        ∃ u r, Waits (exec (.moveCmd att ring) s) u rc (.mover mv ch) ∧ OnlyChan mv ch s1 u ∧
          u.chan? mv ch = some { x with reqs := x.reqs ++ [r] } ∧ r.src = .command c.uid c.tenant ∧
          r.base = some (c.f 24 8) ∧ r.count = c.f 32 4 ∧ r.done = 0) ∧
      (s.starts 0x0202 .inline att ring rc c s1 → x.enabled = true → c.z 19 5 = true → c.z 48 16 = true →
        c.f 18 1 ∈ [1, 2, 4, 8] → 1 ≤ c.f 32 8 → c.f 32 8 ≤ 2 ^ 40 →
        ∃ u r, Waits (exec (.fillCmd att ring) s) u rc (.mover mv ch) ∧ OnlyChan mv ch s1 u ∧
          u.chan? mv ch = some { x with reqs := x.reqs ++ [r] } ∧ r.src = .command c.uid c.tenant ∧ r.base = none ∧
          r.count = r.gen.length ∧ r.done = 0 ∧ (r.gen.map fun b => (descOf b).bytes).sum = c.f 32 8 ∧
          (r.gen.head?.map fun b => (descOf b).dst) = some (c.f 24 8) ∧
          ∀ b ∈ r.gen, (descOf b).op = 2 ∧ (descOf b).fillWidth = c.f 18 1 ∧ (descOf b).src = c.f 40 8) ∧
      (s.starts 0x0203 .inline att ring rc c s1 → x.enabled = true → c.z 18 6 = true → c.z 48 16 = true → 1 ≤ c.f 40 8 →
        c.f 40 8 ≤ 2 ^ 40 →
        ∃ u r, Waits (exec (.compareCmd att ring) s) u rc (.mover mv ch) ∧ OnlyChan mv ch s1 u ∧
          u.chan? mv ch = some { x with reqs := x.reqs ++ [r] } ∧ r.src = .command c.uid c.tenant ∧ r.base = none ∧
          r.count = r.gen.length ∧ r.done = 0 ∧ (r.gen.map fun b => (descOf b).bytes).sum = c.f 40 8 ∧
          (r.gen.head?.map fun b => ((descOf b).src, (descOf b).dst)) = some (c.f 24 8, c.f 32 8) ∧
          ∀ b ∈ r.gen, (descOf b).op = 3) ∧
      (s.starts 0x0205 .inline att ring rc c s1 → x.enabled = false → c.z 18 1 = true → c.z 20 44 = true →
        (8 ≤ c.f 19 1 ∧ c.f 19 1 < 16) ∨ c.f 19 1 = 0xFF →
        ∃ u, Replies (exec (.channelEnable att ring) s) u rc stOK 0 0 0 ∧ OnlyChan mv ch s1 u ∧
          u.chan? mv ch = some { x with enabled := true, vector := c.f 19 1 }) ∧
      (s.starts 0x0206 .inline att ring rc c s1 → x.enabled = true → c.z 18 46 = true →
        (x.act = none → x.reqs = [] → (∀ r ∈ s1.host.running, r.wait ≠ .chanStop mv ch) →
          ∃ u, Replies (exec (.channelDisable att ring) s) u rc stOK 0 0 0 ∧ OnlyChan mv ch s1 u ∧
            u.chan? mv ch = some { x with enabled := false }) ∧
        (∀ a, x.act = some a → ∃ u y, Waits (exec (.channelDisable att ring) s) u rc (.chanStop mv ch) ∧
          OnlyChan mv ch s1 u ∧ u.chan? mv ch = some y ∧ y.stopping = true ∧ y.reqs = x.reqs))

/-- 02 R74 to R76, R655: a descriptor's checks come before any write. COPY, FILL, COMPARE and GATHER that pass them
are in progress with every byte to move, a GATHER with its index list; one that fails the first check ends with
BAD_PARAM. Either way nothing but the channel changes. And 02 R74, R79: a burst of the channel of highest priority.
FILL writes its pattern and COPY and GATHER the bytes of their source to the burst's destination, and no other byte;
COMPARE writes nothing and counts. The channel goes on behind the burst. The ranges are local and memory holds no
error. The corners of a descriptor's checks are readings of the model's (log entry 59). -/
def Obligations.DescriptorsAndTheirBursts : Prop :=
  (∀ (s : State) (mv ch : Nat) (x : Chan) (r : Req) (b : Bytes), s.nextDesc mv ch x r b →
    (∀ i op, (i, op) ∈ [(Instr.copy mv ch, 1), (.fillDescriptor mv ch, 2), (.compareDescriptor mv ch, 3), (.gather mv ch, 4)] →
      (descOf b).op = op → descOk b = false →
      ∃ u, exec i s = .next u ∧ OnlyChan mv ch s u ∧
        u.chan? mv ch = some { x with act := some (newAct (descOf b) stBadParam true) }) ∧
    (descOk b = true → s.descStatus2 r.src (mv == 8) (descOf b) = stOK →
      (∀ i op, (i, op) ∈ [(Instr.copy mv ch, 1), (.fillDescriptor mv ch, 2), (.compareDescriptor mv ch, 3)] →
        (descOf b).op = op → s.descStatus4 (descOf b) [] = stOK →
        ∃ u, exec i s = .next u ∧ OnlyChan mv ch s u ∧
          u.chan? mv ch = some { x with act := some (newAct (descOf b) stOK true) }) ∧
      (∀ v a l, (descOf b).op = 4 → v = s.setAct mv ch (newAct (descOf b) stOK false) →
        v.placeOf (descOf b).listAt 1 = .loc a →
        v.moverGet mv r.src (descOf b).listAt (4 * (descOf b).dstS1) = (v, .data l) → l.length = 4 * (descOf b).dstS1 →
        v.rangesStatus r.src (mv == 8) false ((descOf b).srcRanges l) = stOK → v.descStatus4 (descOf b) l = stOK →
        ∃ u, exec (.gather mv ch) s = .next u ∧ OnlyChan mv ch s u ∧
          u.chan? mv ch = some { x with act := some { newAct (descOf b) stOK true with list := l } }))) ∧
  (∀ (s : State) (mv ch : Nat) (x : Chan) (r : Req) (a : Active) (src dst n : Nat), s.servedNext mv ch x r a →
    a.next = (src, dst, n) → s.mem.lineErr = [] →
    (∀ d bs, s.localFree dst n d → inStaging d = false → bs.length = n →
      ((a.d.op = 2 ∧ bs = a.d.pattern (a.pos % a.d.rowLen) n) ∨
        ((a.d.op = 1 ∨ a.d.op = 4) ∧ s.moverGet mv r.src src n = (s, .data bs))) →
      ∃ u, exec (.burstIssue mv) s = .next u ∧ SameBut [.tiles, .hubMover, .mem, .fab] s u ∧
        u.bytesAt d n = bs ∧ KeepsOutside d n s u ∧
        u.chan? mv ch = some { x with act := some { a with pos := a.pos + n } }) ∧
    (∀ bs cs, a.d.op = 3 → s.moverGet mv r.src src n = (s, .data bs) → s.moverGet mv r.src dst n = (s, .data cs) →
      ∃ u, exec (.burstIssue mv) s = .next u ∧ SameBut [.tiles, .hubMover] s u ∧
        u.chan? mv ch = some { x with act := some { a.compared a.pos bs cs with pos := a.pos + n } }))

/-- 02 R80; 07 R242: a descriptor whose bytes are all written writes its status, MISMATCHES and FIRST_MISMATCH back and
clears OWN, in place and nowhere else, once no core's read locks those bytes; its channel goes on with the next descriptor of
the request. The last one of a command's request makes the command reply, a COMPARE with the sum of mismatches and the first differing byte. -/
def Obligations.DescriptorsComplete : Prop :=
  ∀ (s : State) (mv ch : Nat) (x : Chan) (r : Req) (a : Active) (st : Nat), s.chan? mv ch = some x → x.stopping = false →
    x.reqs.head? = some r → x.act = some a → a.waiting = 0 → a.status = stOK → a.listed = true → a.total ≤ a.pos →
    a.d.event = false → s.mem.lineErr = [] → st = (if a.mism = 0 then stOK else stMiscompare) →
    (r.done + 1 < r.count → (∀ b, r.base = some b → s.lockOn (b + 64 * r.done + 48) 16 = none) →
      ∃ u, exec (.descriptorComplete mv ch) s = .next u ∧
        u.chan? mv ch = some { x with act := none, reqs := r.after st a :: x.reqs.drop 1 } ∧
        (r.base = none → SameBut [.tiles, .hubMover] s u) ∧
        ∀ b, r.base = some b → KeepsOutside (b + 64 * r.done + 48) 16 s u ∧
          u.bytesAt (b + 64 * r.done + 48) 2 = toLE 1 st ++ [0] ∧
          u.bytesAt (b + 64 * r.done + 52) 12 =
            toLE 4 a.mism ++ toLE 8 (if a.d.op = 3 then a.first.getD 0xFFFFFFFFFFFFFFFF else 0)) ∧
    (∀ uid tn rc, r.count ≤ r.done + 1 → r.base = none → r.src = .command uid tn →
      s.host.running.find? (fun c => c.uid == uid) = some rc → rc.opcode = 0x0203 →
      ∃ u, Replies (exec (.descriptorComplete mv ch) s) u rc (((r.after st a).bad.map (·.2)).getD stOK)
          (sat32 (r.mism + a.mism)) ((r.after st a).first.getD 0xFFFFFFFFFFFFFFFF) 0 ∧
        OnlyChan mv ch s u ∧ u.chan? mv ch = some { x with act := none, reqs := x.reqs.drop 1 })

/-- 07 R235, R242; 02 R73: MOVD hands its descriptors to a mover channel of its pair, XEXP and SPILL hand theirs to the XU
and the spillway engine of the tile, behind what waits there; each leaves its queue. MOVD that names another channel
records CHANNEL_OWNER. -/
def Obligations.MoveSlotHandsOver : Prop :=
  ∀ (s : State) (t p : Nat) (k : Kernel) (x : Path) (q : QItem) (y : Tile) (m : MoveOut), s.tiles[t]? = some y →
    m = { seq := q.seq, bundle := q.bundle,
          sig := if bitOf q.word.toNat 61 then some (wf q.word 60 58, wf q.word 57 50) else none } →
    (∀ c ch, s.movHeld t p 0x01 k x q → ch = wf q.word 11 6 → s.chan? t ch = some c → s.chanBlocked t ch = false →
      (ch % 16 = p → ch < 56 → inMem q.desc (64 * q.ndesc) 64 cisBytes = true →
        ∃ u, exec (.movd t p) s = .next u ∧ SameBut [.tiles, .hubMover] s u ∧
          u.path? t p = some { x with xq := x.xq.drop 1, moves := x.moves ++ [m] } ∧
          u.chan? t ch = some { c with reqs := c.reqs ++
            [newReq (.path t p q.seq q.bundle k.kid) (some (cisAddr t q.desc)) [] q.ndesc] }) ∧
      (ch % 16 ≠ p ∨ 56 ≤ ch → exec (.movd t p) s = .next (s.faultX t p kfChannelOwner q.bundle))) ∧
    (s.movHeld t p 0x02 k x q → s.blocked 4 t 0 = false → inMem q.desc (128 * q.ndesc) 128 cisBytes = true →
      ∃ u z, exec (.xexp t p) s = .next u ∧ OnlyTile t s u ∧
        u.path? t p = some { x with xq := x.xq.drop 1, moves := x.moves ++ [m] } ∧ u.tiles[t]? = some z ∧
        z.xu = y.xu ++ [unitReq t p k q] ∧ z.spw = y.spw) ∧
    (s.movHeld t p 0x03 k x q → s.blocked 5 t 0 = false → inMem q.desc (128 * q.ndesc) 128 cisBytes = true →
      ∃ u z, exec (.spill t p) s = .next u ∧ OnlyTile t s u ∧
        u.path? t p = some { x with xq := x.xq.drop 1, moves := x.moves ++ [m] } ∧ u.tiles[t]? = some z ∧
        z.spw = y.spw ++ [unitReq t p k q] ∧ z.xu = y.xu)

/-! ### The XU and the spillway engine (08, 09) -/

/-- 08 R263 to R288: an expansion command that passes the checks of R267, over local memory that is free and without
errors, completes with OK and its count of omitted taps, and writes no byte outside its output items; a command of one
item writes that item's bytes. One whose fields are not in order ends with BAD_PARAM, and one that fails a later check with
that check's status, with nothing written.
Which step of R267 some checks belong to is a reading of the model's (log entries 49 and 50). -/
def Obligations.ExpansionCommandsRun : Prop :=
  ∀ (s : State) (t : Nat) (y : Tile) (r : UnitReq) (b : Bytes) (d : XCmd) (its : List XItem) (src : ReqSrc),
    s.tiles[t]? = some y → y.xu.head? = some r → y.xuDone = none → y.xuNet = UnitNet.none → s.mem.lineErr = [] →
    s.mem.wordErr = [] → s.mem.deadPages = [] → b = s.bytesAt (cisAddr t (r.base + 128 * r.done)) 128 → d = xcmdOf b →
    its = d.items s t → src = .path r.t r.p r.seq r.bundle r.kid → s.faulted src = false → s.blocked 4 t 0 = false →
    ∀ i op, (i, op) ∈ [(Instr.expand t, 1), (.foldGrad t, 2), (.poolMax t, 3), (.poolAvg t, 4), (.poolGrad t, 5),
      (.cropResize t, 6)] → d.op = op →
    (∀ st, (xcmdOk b = false ∧ st = stBadParam) ∨
        (xcmdOk b = true ∧ op ≠ 6 ∧ st = d.status s t src its ∧ st ≠ stOK) →
      ∃ u z e, exec i s = .next u ∧ OnlyTile t s u ∧ u.tiles[t]? = some z ∧ z = { y with xuDone := some e } ∧ e.status = st) ∧
    (xcmdOk b = true → d.status s t src its = stOK →
      (∀ q ∈ d.lists ++ its.flatMap (·.reads) ++ its.flatMap (·.dst),
        q.1 < 2 ^ 63 ∧ s.mustWait q.1 q.2 = false ∧ s.lockOn q.1 q.2 = none) →
      (∀ q ∈ d.idxPlane, ∀ c, c < d.c → s.xuNum t (q.1 + 2 * c) 2 < d.y.k * d.x.k) →
      ∃ u z e, exec i s = .next u ∧ SameBut [.tiles, .mem, .fab, .resv] s u ∧ u.tiles[t]? = some z ∧ z.xuDone = some e ∧
        e.status = stOK ∧ e.omitted = d.omitted ∧ z.xu = y.xu ∧
        (∀ a, (∀ q ∈ its.flatMap (·.dst), a < q.1 ∨ q.1 + q.2 ≤ a) → u.byteAt a = s.byteAt a) ∧
        ∀ it, its = [it] → it.dst.Pairwise (fun x y => overlaps x.1 x.2 y.1 y.2 = false) →
          ∀ w ∈ it.dst.zip (it.out s), u.bytesAt w.1.1 w.1.2 = w.2)

/-- 09 R292 to R294, R303 to R310: a tensor descriptor that passes its checks, over memory that is free and without errors,
writes no byte outside its stream, report or rows. A SAVE or ROUNDTRIP then has ended; a SAVE that ends OK leaves its
header VALID, or DROPPED, with the kernel's step and the stream's length. A RESTORE of a DROPPED stream writes nothing and
says so.
Some corners of the checks are readings of the model's (log entry 64). -/
def Obligations.TensorDescriptorsRun : Prop :=
  ∀ (s : State) (t : Nat) (y : Tile) (r : UnitReq) (k : Kernel) (b : Bytes) (d : TDesc), s.tiles[t]? = some y →
    y.spw.head? = some r → y.spwDone = none → s.kernel? r.kid = some k → s.mem.lineErr = [] → s.mem.wordErr = [] →
    s.mem.deadPages = [] → b = s.bytesAt (cisAddr t (r.base + 128 * r.done)) 128 → d = tdescOf b →
    s.faulted (.path r.t r.p r.seq r.bundle r.kid) = false → s.blocked 5 t 0 = false →
    (tdescOk b = false → ∀ i op, (i, op) ∈ [(Instr.saveStream t, 1), (.restoreStream t, 2), (.roundtrip t, 3)] → d.op = op →
      ∃ u e, exec i s = .next u ∧ OnlyTile t s u ∧ u.tiles[t]? = some { y with spwDone := some e } ∧ e.status = stBadParam) ∧
    (tdescOk b = true → s.spwInside k.tenant false d.reads = true → s.spwInside k.tenant true d.writes = true →
      d.consistent = true → (∀ q ∈ d.reads ++ d.writes, hbmAny s.groupOff q.1 q.2 = false ∧ s.mustWait q.1 q.2 = false ∧
        s.lockOn q.1 q.2 = none) →
      (d.op = 1 → (d.report = 0 ∨ overlaps d.stream d.capacity d.report 64 = false) →
        ∃ u z e, exec (.saveStream t) s = .next u ∧ SameBut [.tiles, .clk, .mem, .fab, .resv] s u ∧ u.tiles[t]? = some z ∧
          z.spwDone = some e ∧ z.spw = y.spw ∧ (e.status = stOK ∨ e.status = stLimit ∧ d.dropOk = false) ∧
          (∀ a, (∀ q ∈ d.writes, a < q.1 ∨ q.1 + q.2 ≤ a) → u.byteAt a = s.byteAt a) ∧
          (e.status = stOK → u.bytesAt d.stream 64 =
            streamHeader d (if e.dropped then 3 else 2) k.step.toNat e.streamBytes e.maxError)) ∧
      (d.op = 3 →
        ∃ u z e, exec (.roundtrip t) s = .next u ∧ SameBut [.tiles, .mem, .fab, .resv] s u ∧ u.tiles[t]? = some z ∧
          z.spwDone = some e ∧ z.spw = y.spw ∧ e.status = stOK ∧
          ∀ a, (∀ q ∈ d.writes, a < q.1 ∨ q.1 + q.2 ≤ a) → u.byteAt a = s.byteAt a) ∧
      (∀ h, d.op = 2 → h = s.bytesAt d.stream 64 → headerOk d k.step.toNat h = true →
        (fld h 4 1 = 3 → ∃ u e, exec (.restoreStream t) s = .next u ∧ OnlyTile t s u ∧
          u.tiles[t]? = some { y with spwDone := some e } ∧ e.status = stOK ∧ e.dropped = true) ∧
        (fld h 4 1 = 2 → s.spwInside k.tenant false [(d.stream, fld h 32 8)] = true →
          anyOverlap [(d.stream, fld h 32 8)] d.writes = false → hbmAny s.groupOff d.stream (fld h 32 8) = false →
          s.mustWait d.stream (fld h 32 8) = false →
          ∃ u z e, exec (.restoreStream t) s = .next u ∧ SameBut [.tiles, .mem, .fab, .resv] s u ∧ u.tiles[t]? = some z ∧
            z.spwDone = some e ∧ z.spw = y.spw ∧ (e.status = stOK ∨ e.status = stBadParam) ∧
            e.streamBytes = fld h 32 8 ∧
            ∀ a, (∀ q ∈ d.writes, a < q.1 ∨ q.1 + q.2 ≤ a) → u.byteAt a = s.byteAt a)))

/-- 09 R295 to R301: a row comes back from its record. Lossless, every code of a row has the bits it had; bounded,
every block has its stored values, or its source codes where it escaped. And 08 R287; 09 R312; 07 R242, R243: once its
writes are acknowledged a unit writes the status and the rest of its write-back into the descriptor, clears OWN and
goes on with the request's next one; after the last one the instruction's token signal stands on its path. No byte
outside the descriptor changes. -/
def Obligations.RowsAndUnitsWriteBack : Prop :=
  ((∀ (f : Fmt) (codes : List Nat), f ≠ .x64 → (∀ c ∈ codes, c < 2 ^ f.width) →
    decodeLossless f codes.length (losslessRecord f codes) = some codes) ∧
  ∀ (f q : Fmt) (mode : RMode) (bound : BitVec 32) (codes rs : List Nat), f = .s16 ∨ f = .h32 → q = .s4 ∨ q = .s8x →
    (∀ c ∈ codes, c < 2 ^ f.width) → codes.length % 32 = 0 → rs.length = codes.length →
    decodeBounded f q (codes.length / 32) (boundedRecord (rowBlocks f q mode bound codes rs)) =
      some ((rowBlocks f q mode bound codes rs).flatMap (·.back))) ∧
  (∀ (s : State) (t : Nat) (y : Tile) (r : UnitReq) (d : UnitDone) (a : Nat), s.tiles[t]? = some y →
    a = cisAddr t (r.base + 128 * r.done) → d.status = stOK →
    (y.xu.head? = some r → y.xuDone = some d → y.xuNet = UnitNet.none →
      ∃ u z, exec (.expansionComplete t) s = .next u ∧ SameBut [.tiles, .mem] s u ∧ u.tiles[t]? = some z ∧ z.xuDone = none ∧
        u.bytesAt (a + 4) 4 = toLE 1 stOK ++ [0] ++ toLE 2 d.omitted ∧ KeepsOutside (a + 4) 4 s u ∧
        (r.done + 1 < r.count → z.xu = { r with done := r.done + 1 } :: y.xu.drop 1) ∧
        (r.count ≤ r.done + 1 → z.xu = y.xu.drop 1 ∧ ∀ x m lt tk, s.path? r.t r.p = some x →
          x.moves.find? (fun m => m.seq == r.seq) = some m → m.sig = some (lt, tk) →
          ∃ w, u.path? r.t r.p = some w ∧ w.sigs = x.sigs ++
            [{ token := tk, ttile := lt, mUpTo := 0, vUpTo := 0, xUpTo := 0, bundle := r.bundle }])) ∧
    (y.spw.head? = some r → y.spwDone = some d →
      ∃ u z, exec (.spillwayComplete t) s = .next u ∧ SameBut [.tiles, .mem] s u ∧ u.tiles[t]? = some z ∧ z.spwDone = none ∧
        u.bytesAt (a + 4) 3 = toLE 1 stOK ++ [0] ++ [if d.dropped then 1 else 0] ∧
        u.bytesAt (a + 96) 4 = toLE 4 d.maxError.toNat ∧ u.bytesAt (a + 120) 8 = toLE 8 d.streamBytes ∧
        (d.op ≠ 2 → u.bytesAt (a + 100) 4 = toLE 4 d.escaped) ∧ KeepsOutside a 128 s u ∧
        (r.done + 1 < r.count → z.spw = { r with done := r.done + 1 } :: y.spw.drop 1) ∧
        (r.count ≤ r.done + 1 → z.spw = y.spw.drop 1 ∧ ∀ x m lt tk, s.path? r.t r.p = some x →
          x.moves.find? (fun m => m.seq == r.seq) = some m → m.sig = some (lt, tk) →
          ∃ w, u.path? r.t r.p = some w ∧ w.sigs = x.sigs ++
            [{ token := tk, ttile := lt, mUpTo := 0, vUpTo := 0, xUpTo := 0, bundle := r.bundle }])))

/-! ### The margin governor and telemetry (03) -/

/-- 03 R95 to R97, R101, R106, R107: one loop of a tile that has its floor, with no ageing measurement held back. It takes in
the sensors, puts the carrier cap in force and moves the thermal ceiling. The rail moves by at most 5 mV and its goal is at or
above the effective floor, or the tile is fenced at 850 mV; slack below 4.00 % outside an emergency stops issue and raises the
rail by 20 mV instead; an emergency ends at slack of 8.00 % with its rail held as a floor.
Operands that a loop takes in as sensor readings are the row's operands. -/
def Obligations.GovernorLoopMovesOneStep : Prop :=
  ∀ (s : State) (t : Nat) (x : Sensors) (y : Tile) (floor : Nat), s.tiles[t]? = some y → s.tileOn t = true →
    y.gov.floorSet = true → y.gov.ageDue = false → floor = max x.floorMv (y.gov.heldFloor.getD 0) + y.gov.guard →
    ∃ u z, exec (.governorLoop t x) s = .next u ∧ (s.tileJob t = false → SameBut [.tiles, .tel, .host, .mem, .fab, .resv] s u) ∧
      u.tel.capLive = s.tel.carrierCap ∧ u.tiles[t]? = some z ∧ z.gov.tj = x.tj ∧ z.gov.minSlack = x.slack ∧ z.gov.sentinelFloor = x.floorMv ∧
      z.gov.powerMw = x.powerMw ∧ z.gov.guard = y.gov.guard ∧ z.gov.policy = y.gov.policy ∧
      z.gov.vThermal = (if 1000 < x.tj then max 550 (min y.gov.vThermal y.gov.rail - 5)
        else if x.tj ≤ 970 then min 850 (y.gov.vThermal + 5) else y.gov.vThermal) ∧
      (y.gov.emergency = false → 16 ≤ x.slack → z.gov.emergency = false ∧ z.gov.rail ≤ y.gov.rail + 5 ∧
        y.gov.rail ≤ z.gov.rail + 5 ∧
        (y.gov.floorFence = true ∨ 850 < floor → z.gov.floorFence = true ∧ z.gov.applied = 850) ∧
        (y.gov.floorFence = false → floor ≤ 850 → z.gov.floorFence = false ∧
          min (floor + y.gov.policy.marginAdd) 850 ≤ z.gov.applied)) ∧
      (y.gov.emergency = false → x.slack < 16 → z.gov.emergency = true ∧ z.gov.rail = min 850 (y.gov.rail + 20)) ∧
      (y.gov.emergency = true → z.gov.rail ≤ y.gov.rail + 5 ∧ y.gov.rail ≤ z.gov.rail + 5 ∧
        (x.slack < 32 → z.gov.emergency = true) ∧ (32 ≤ x.slack → z.gov.emergency = false ∧ z.gov.heldFloor = some y.gov.rail ∧
          z.gov.emergCount = y.gov.emergCount + 1))

/-- 03 R93, R94, R96, R107, R111, R113: the other rows of the governor. A slack emergency stops issue of its tile and
raises its rail by 20 mV; a held floor expires; a first floor measurement lets the tile run, or fences it above 850
mV, and fails the jobs that run on it; an ageing entry sets the V_RATED of each tile that runs and its guard, which over the
ledger never decreases, and is held back for one that does not. And 03 R101, R102,
R104, R114, R115, R117: POWER_CAP, OPERATING_POLICY and TELEMETRY_READ in order have their effect and nothing else,
and a publication counts the page, marks both its ends with its number and releases ALERT_N. A tenant's copy shows
zeros for the tiles it does not hold. V_RATED_INITIAL is an uninterpreted constant (log entry 12); the order of some
checks is a reading of the model's (log entry 67). -/
def Obligations.FloorsGuardsAndPolicies : Prop :=
  (∀ (s : State) (t : Nat) (y : Tile), s.tiles[t]? = some y →
    (s.tileOn t = true → y.gov.floorSet = true → y.gov.emergency = false →
      ∃ u, exec (.slackEmergency t) s = .next u ∧ OnlyTile t s u ∧ u.issues t = false ∧
        u.tiles[t]? = some { y with gov := { y.gov with emergency := true, rail := min 850 (y.gov.rail + 20) } }) ∧
    (∃ u, exec (.floorHoldExpiry t) s = .next u ∧ OnlyTile t s u ∧
      u.tiles[t]? = some { y with gov := { y.gov with heldFloor := none } }) ∧
    (∀ v, s.tileOn t = true → y.gov.floorSet = false →
      (max v (y.gov.heldFloor.getD 0) + y.gov.guard ≤ 850 → ∃ u, exec (.floorMeasure t v) s = .next u ∧ OnlyTile t s u ∧
        u.tiles[t]? = some { y with gov := { y.gov with sentinelFloor := v, floorSet := true, floorFence := false } }) ∧
      (850 < max v (y.gov.heldFloor.getD 0) + y.gov.guard → ∃ u z, exec (.floorMeasure t v) s = .next u ∧
        u.tiles[t]? = some z ∧ z.gov.floorFence = true ∧ z.gov.floorSet = true ∧ z.gov.applied = 850 ∧
        (s.tileJob t = false → SameBut [.tiles, .tel] s u ∧ (u.tel.events.head?.map (·.code)) = some 0x0005) ∧
        ∀ h j, s.job? h = some j → j.st = .running → (s.tilesOfJob j).contains t = true →
          (∀ q ∈ s.host.tenants, q.releasing = false) → ∃ w, u.job? h = some w ∧ w.st = .failed)) ∧
    (∀ l readable v, l[t]? = some v → s.tileRuns t = false →
      ∃ u, exec (.ageingMeasurement l readable) s = .next u ∧ SameBut [.tiles, .tel] s u ∧
        u.tiles[t]? = some { y with gov := { y.gov with ageDue := true } }) ∧
    ∀ l readable v d, l[t]? = some v → s.tileRuns t = true → d = v - Config.vRatedInit t →
      ∃ u z g, exec (.ageingMeasurement l readable) s = .next u ∧ SameBut [.tiles, .tel] s u ∧
        (∀ e, s.tel.ageing[t]? = some e → u.tel.ageing[t]? = some ((v :: e).take 2160)) ∧
        u.tiles[t]? = some z ∧ z.gov.vRated = v ∧ z.gov.ageDue = false ∧
        (d ≤ 4 * (g - 10) ∧ 10 ≤ g ∧ g % 5 = 0 ∧ (10 < g → 4 * (g - 15) < d)) ∧
        z.gov.guardLedger = max y.gov.guardLedger g ∧ y.gov.guardLedger ≤ z.gov.guardLedger ∧
        (readable = true → z.gov.guard = z.gov.guardLedger) ∧ (readable = false → z.gov.guard = max y.gov.guard g)) ∧
  (∀ (s : State) (att ring : Nat) (rc : RunCmd) (c : Cmd) (s1 : State),
    (s.starts 0x0701 .inline att ring rc c s1 → c.z 20 44 = true → c.f 16 4 = 0 ∨ (600 ≤ c.f 16 4 ∧ c.f 16 4 ≤ 4000) →
      (s1.holdsAll c.tenant = true →
        ∃ u st, Replies (exec (.powerCap att ring) s) u rc st (min u.tel.powerCap u.tel.capLive) 0 0 ∧
          SameBut [.tel] s1 u ∧ u.tel.powerCap = (if c.f 16 4 = 0 then 4000 else c.f 16 4) ∧
          u.tel.carrierCap = s1.tel.carrierCap ∧ u.tel.capLive = s1.tel.capLive ∧ st = (if u.appliedCap < c.f 16 4 then stClamped else stOK)) ∧
      (s1.holdsAll c.tenant = false → Replies (exec (.powerCap att ring) s) s1 rc stDenied 0 0 0)) ∧
    (s.starts 0x0703 .inline att ring rc c s1 → c.z 24 40 = true → c.f 18 2 ≤ 100 → c.f 18 2 % 5 = 0 →
      (c.f 17 1 = 0 ∧ 550 ≤ c.f 20 4 ∧ c.f 20 4 ≤ 850 ∧ c.f 20 4 % 5 = 0) ∨ (c.f 17 1 = 1 ∧ 500 ≤ c.f 20 4 ∧ c.f 20 4 ≤ 3200) →
      s1.holdsMask c.tenant (c.f 16 1) = true →
      ∃ u, (Waits (exec (.operatingPolicy att ring) s) u rc (.policy (BitVec.ofNat 8 (c.f 16 1))) ∨
          (u.policyDone (c.f 16 1) = true ∧ Replies (exec (.operatingPolicy att ring) s) u rc stOK 0 0 0)) ∧
        SameBut [.tiles] s1 u ∧
        ∀ t y, t < 8 → s1.tiles[t]? = some y → u.tiles[t]? = some (if bitOf (c.f 16 1) t then
          { y with gov := { y.gov with policy := { mode := c.f 17 1, marginAdd := c.f 18 2, target := c.f 20 4 }, applied := 0 } }
          else y)) ∧
    (∀ tn, s.starts 0x0006 .inline att ring rc c s1 → s1.tenant? c.tenant = some tn → c.z 25 39 = true →
      (c.f 24 1 = 2 → ∃ u z, Replies (exec (.telemetryRead att ring) s) u rc stOK 0 0 0 ∧ SameBut [.host] s1 u ∧
        u.tenant? c.tenant = some z ∧ z = { tn with telemDest := none }) ∧
      (c.f 24 1 = 0 → c.f 16 8 % 4096 = 0 → c.f 16 8 + 4096 ≤ hbmEnd → inPart tn false true (c.f 16 8) 4096 = true →
        hbmAny s1.groupOff (c.f 16 8) 4096 = false → hbmAny s1.groupInit (c.f 16 8) 4096 = false → s1.mem.lineErr = [] → s1.tel.telemPage.length ≤ 4096 →
        ∃ u, Replies (exec (.telemetryRead att ring) s) u rc stOK s1.tel.telemSeq 0 0 ∧ SameBut [.mem, .fab] s1 u ∧
          u.bytesAt (c.f 16 8) 4096 = pageFor tn.tiles.toNat (padTo 4096 s1.tel.telemPage) ∧ KeepsOutside (c.f 16 8) 4096 s1 u ∧
          ∀ i, i < 8 → bitOf tn.tiles.toNat i = false → u.bytesAt (c.f 16 8 + 0x100 + 64 * i) 64 = zeros 64)) ∧
    (s.pow.stage = 2 → s.pow.episode ≠ some true → s.tel.events.length ≤ 32 → (∀ tn ∈ s.host.tenants, tn.telemDest = none) →
      ∃ u, exec .telemetryPublish s = .next u ∧ SameBut [.tel] s u ∧ u.tel.telemSeq = s.tel.telemSeq + 1 ∧
        u.tel.alertN = true ∧ u.tel.telemPage.length = 4096 ∧ u.tel.telemPage.take 8 = toLE 8 (s.tel.telemSeq + 1) ∧
        u.tel.telemPage.drop 4088 = toLE 8 (s.tel.telemSeq + 1) ∧ u.tel.events = s.tel.events))

/-! ### Memory health (10) -/

/-- 10 R326 to R332; 17 R614: a scrub visits one line and moves on, at the end of the group back to offset 0 with the pass
counted, its on-die counts added and the next pass's interval in force. A single-symbol error is corrected and counted; an
error it cannot correct poisons the line and is counted. In SRAM a single-bit error is corrected and a double-bit error
stays. No byte of memory changes.
The numbers of accumulator words are the model's own (log entry 62). -/
def Obligations.ScrubsRepair : Prop :=
  (∀ (s : State) (g : Nat) (y : Tile) (f : LineFinding) (onDie line : Nat), s.tiles[g]? = some y → s.domOn (12 + g) = true →
    s.groupReady g = true → y.mg.scrubOff < groupBytes → line = (g * groupBytes + y.mg.scrubOff) / 64 →
    s.lineErrAt line = none →
    ∃ u z, exec (.patrolScrubLine g f onDie) s = .next u ∧ SameBut [.tiles, .tel, .mem] s u ∧ u.mem.cells = s.mem.cells ∧
      u.tiles[g]? = some z ∧
      (if y.mg.scrubOff + 64 < groupBytes then z.mg.scrubOff = y.mg.scrubOff + 64 ∧ z.mg.passes = y.mg.passes ∧
          z.mg.onDie = y.mg.onDie ∧ z.mg.passHours = y.mg.passHours
        else z.mg.scrubOff = 0 ∧ z.mg.passes = y.mg.passes + 1 ∧ z.mg.onDie = y.mg.onDie + onDie ∧
          z.mg.passHours = y.mg.nextHours) ∧
      (f = .same → u.lineErrAt line = none ∧ z.mg.ceLines = y.mg.ceLines ∧ z.mg.ueEvents = y.mg.ueEvents) ∧
      (∀ i, f = .symbol i → u.lineErrAt line = none ∧ z.mg.ceLines = y.mg.ceLines + 1 ∧ z.mg.ueEvents = y.mg.ueEvents) ∧
      (f = .uncorrectable → u.lineErrAt line = some .poisoned ∧ z.mg.ueEvents = y.mg.ueEvents + 1 ∧
        z.mg.ceLines = y.mg.ceLines)) ∧
  ∀ (s : State) (word t : Nat) (f : WordFinding), tileOfWord word = some t → s.tileOn t = true →
    ∃ u, exec (.sramScrub word f) s = .next u ∧ SameBut [.mem] s u ∧ u.mem.cells = s.mem.cells ∧
      (u.mem.wordErr.find? fun e => e.1 == word) =
        (if f = .double ∨ (word, WordErr.double) = (s.mem.wordErr.find? fun e => e.1 == word).getD (0, .single) ∨
            (f = .single ∧ (s.mem.wordErr.find? fun e => e.1 == word) = some (word, .single))
          then some (word, .double) else none)

/-- 10 R336 to R338, R345, R348: a health record is rewritten with its next sequence number at both ends and its counts
between them, and no byte outside the record changes; the reservoir's is rewritten also when a quarter's STAGING_USED has
changed; a group that initialises becomes ready, or degraded; staging becomes ready; spare blocks fall and RESERVOIR_WEAR is recorded once at 10 %. -/
def Obligations.HealthAndReadiness : Prop :=
  ∀ (s : State) (g : Nat) (y : Tile), s.tiles[g]? = some y → g < 8 →
    (∀ a, a = tileWin g + recOff → s.domOn 2 = true → s.recDue y.mg.recUs = true → s.stale a (s.groupRecord g y.mg) = true →
      (y.mg.log.flatMap id).length ≤ 2048 → (∀ f ∈ y.mg.retired, f < 131072) →
      ∃ u z, exec (.healthRecordRewrite g) s = .next u ∧ SameBut [.tiles, .mem] s u ∧ u.tiles[g]? = some z ∧
        z.mg.seq = y.mg.seq + 1 ∧ u.bytesAt a 8 = toLE 8 (y.mg.seq + 1) ∧ u.bytesAt (a + 0x38) 8 = toLE 8 (y.mg.seq + 1) ∧
        u.bytesAt (a + 8) 48 = s.groupCounts g y.mg ∧ KeepsOutside a 0x8000 s u) ∧
    (s.domOn 2 = true → s.recDue s.resv.resUs = true →
      s.stale resRecAddr s.resRecord = true ∨ [1, 2, 3, 4].map s.stagingUsed ≠ s.resv.resUsed →
      ∃ u, exec (.healthRecordRewrite 8) s = .next u ∧ SameBut [.resv, .mem] s u ∧ u.resv.resSeq = s.resv.resSeq + 1 ∧
        u.resv.resUsed = [1, 2, 3, 4].map s.stagingUsed ∧
        u.bytesAt resRecAddr 8 = toLE 8 (s.resv.resSeq + 1) ∧ u.bytesAt (resRecAddr + 0xFF8) 8 = toLE 8 (s.resv.resSeq + 1) ∧
        KeepsOutside resRecAddr 0x1000 s u) ∧
    (y.mg.st = 1 → s.domOn (12 + g) = true →
      s.mem.waiting = [] → ∃ u z, exec (.memoryGroupReady g) s = .next u ∧ SameBut [.tiles, .pow] s u ∧ u.tiles[g]? = some z ∧
        z = { y with mg := { y.mg with st := if y.mg.degraded then 3 else 2 } } ∧ u.groupReady g = true ∧
        u.pow = { s.pow with bringUp := u.pow.bringUp } ∧
        (u.pow.bringUp ≠ s.pow.bringUp → s.pow.bringUp = .boot ∧ u.pow.bringUp = .selftest ∧
          ∀ i, i < 8 → u.groupReady i = true)) ∧
    (s.domOn 2 = true →
      (∃ u, exec .stagingReady s = .next u ∧ u = { s with resv := { s.resv with stagingReady := true } }) ∧
      ∀ spare nand fresh, ∃ u, exec (.reservoirWearLevelling spare nand fresh) s = .next u ∧ SameBut [.resv, .tel] s u ∧
        u.resv.sparePct = min s.resv.sparePct spare ∧ u.resv.nandBytes = s.resv.nandBytes + nand ∧
        u.resv.refreshes = s.resv.refreshes + fresh ∧
        (s.resv.wearEvent = false → min s.resv.sparePct spare ≤ 10 → u.resv.wearEvent = true ∧
          u.tel.events.head?.map (·.code) = some 0x0013) ∧
        (s.resv.wearEvent = true → u.tel = s.tel))

/-! ### Links, router and map (11) -/

/-- 11 R357 to R359, R362 to R366: what frames, link messages and training events do to their port. A frame that fails its
checks, or comes out of order, is not accepted and sets NAK; the next one in order is accepted; the replay buffer keeps at
most 64 frames. More than 32 NAKs within 1 ms, and a lost signal, send the link to training. Training takes the widest lane
set; a calibration keeps a step only where the count is lower, and tries a step down after a step up that failed.
The check value of a frame, some corners of links, and what else a calibration waits for are not in the spec's words (log
entries 68, 69 and 72). -/
def Obligations.LinksCarryAndTrain : Prop :=
  (∀ (lanes : BitVec 16) (l n : Nat), laneSet lanes = some (l, n) → (∀ i, i < n → lanes.getLsbD (l + i) = true) ∧ l % n = 0 ∧
    ∀ l' n', n < n' → n' = 16 ∨ n' = 8 → l' % n' = 0 → l' < 16 → ∃ i, i < n' ∧ lanes.getLsbD (l' + i) = false) ∧
  ∀ (s : State) (port : Nat) (q : Port), s.fab.ports[port]? = some q →
    (∀ data bad, s.domOn 1 = true → q.st ≠ .down → q.st ≠ .fault →
      ∃ u y, exec (.linkFrame port data bad) s = .next u ∧ SameBut [.fab, .tel] s u ∧ u.fab.ports[port]? = some y ∧
        (∀ j, j ≠ port → u.fab.ports[j]? = s.fab.ports[j]?) ∧ (q.replay.length ≤ 64 → y.replay.length ≤ 64) ∧
        (portTrains q = false → bad ≠ 0 → y.nak = true ∧ y.rxSeq = q.rxSeq ∧ y.inq = q.inq ∧ y.partSlots = q.partSlots ∧
          ((q.naks.filter fun t => decide (s.clk.nowUs < t + 1000)).length < 32 → y.st = q.st) ∧
          (32 ≤ (q.naks.filter fun t => decide (s.clk.nowUs < t + 1000)).length → y.st = .retrain ∧
            u.tel.events.head?.map (·.code) = some 0x0023)) ∧
        (portTrains q = false → bad = 0 → crc64 (data.take 10240) = BitVec.ofNat 64 (fld data 10240 8) →
          BitVec.ofNat 32 (fld data 8 4) = q.rxSeq + 1 →
          y.rxSeq = q.rxSeq + 1 ∧ y.nak = false ∧ y.st = q.st ∧ q.inq <+: y.inq)) ∧
    (∀ d, q.st = .down → s.domOn 1 = true → s.fab.sluices = true → s.fab.dims = some d → 1 < extent d (port / 2) →
      ∃ u, exec (.linkSignalDetect port) s = .next u ∧ OnlyPort port s u ∧ u.fab.ports[port]? = some
        { q with st := .training, attempts := 0, ident := false, cal := none
                 mute := q.mute || (extent d (port / 2) == 2 && port % 2 == 1), lmsgIn := [], lmsgOut := [padTo 64 s.ident] }) ∧
    (q.st = .active ∨ q.st = .degraded ∨ q.st = .sleep → ∃ u, exec (.linkSignalLoss port) s = .next u ∧ OnlyPort port s u ∧
      u.fab.ports[port]? = some
        { q with st := .retrain, attempts := 0, ident := false, cal := none, lmsgIn := [], lmsgOut := [padTo 64 s.ident] }) ∧
    (∀ m self d id, q.lmsgIn.find? (fun m => fld m 0 1 == 1) = some m → portTrains q = true → s.fab.modId = some self →
      s.fab.dims = some d → id = fld m 2 2 % 0x8000 → (∀ (k : Nat) (o : Port), s.fab.ports[k]? = some o → o.st = .down → o.outq = []) →
      (fld m 2 2 = self + 0x8000 → ∃ u, exec (.identMsg port) s = .next u ∧ SameBut [.fab] s u ∧
        ∀ k o, u.fab.ports[k]? = some o → k / 2 = port / 2 → o.mute = true) ∧
      (fld m 2 2 ≠ self + 0x8000 → ∃ u y, exec (.identMsg port) s = .next u ∧ SameBut [.fab, .tel] s u ∧ u.fab.ports[port]? = some y ∧
        (fld m 2 2 = id + 0x8000 → partnerOk d self id port = true → fldBytes m 8 16 = padTo 16 s.fab.fabDigest →
          y.partner = some id ∧ y.partnerGen = fld m 4 2 ∧ y.ident = true ∧ y.st = q.st ∧ u.tel = s.tel ∧
          (q.partner = some id → q.partnerGen = fld m 4 2 → y.replay = q.replay ∧ y.partnerW = q.partnerW) ∧
          (q.partner ≠ some id → y.partnerW = 16) ∧
          (extent d (port / 2) ≠ 2 → (∀ k o, s.fab.ports[k]? = some o → k / 2 = port / 2 → k ≠ port → o.partner ≠ some self) →
            y.mute = false)) ∧
        (fld m 2 2 < 0x8000 ∨ partnerOk d self id port = false ∨ fldBytes m 8 16 ≠ padTo 16 s.fab.fabDigest →
          y.st = .fault ∧ u.tel.events.head?.map (·.code) = some 0x0022))) ∧
    (∀ m, q.lmsgIn.find? (fun m => fld m 0 1 == 3) = some m → fld m 1 1 ∈ [16, 8, 4, 1] → q.st = .active ∨ q.st = .degraded →
      ∃ u y, exec (.widthMsg port) s = .next u ∧ OnlyPort port s u ∧ u.fab.ports[port]? = some y ∧
        y.width = min (if s.pow.asleep then 1 else q.trained) (fld m 1 1) ∧ y.st = widthState y.width ∧ y.outq = q.outq) ∧
    (∀ m, q.lmsgIn.find? (fun m => fld m 0 1 == 4) = some m → q.txeqOut.contains m = false → fld m 1 1 < 16 → fld m 2 1 ≤ 5 →
      fld m 3 1 = 1 ∨ fld m 3 1 = 0xFF →
      ∃ u y, exec (.txeqMsg port) s = .next u ∧ OnlyPort port s u ∧ u.fab.ports[port]? = some y ∧ y.st = q.st ∧
        y.txSet = stepSetting q.txSet (fld m 1 1) (fld m 2 1) (fld m 3 1 == 1) ∧ y.lmsgOut = q.lmsgOut ++ [padTo 64 m]) ∧
    (∀ lanes l n p self d, portTrains q = true → laneSet lanes = some (l, n) → q.ident = true → q.partner = some p →
      s.fab.modId = some self → s.fab.dims = some d →
      ∃ u y, exec (.linkTrained port lanes) s = .next u ∧ u.fab.ports[port]? = some y ∧
        y.trained = n ∧ y.lane = l ∧ y.width = min (if s.pow.asleep then 1 else n) q.partnerW ∧ y.st = widthState y.width ∧
        y.replay = q.replay ∧ y.resend = q.replay ∧ (p = self → n = 16 → OnlyPort port s u)) ∧
    (∀ lanes, portTrains q = true → (laneSet lanes).isSome = true → q.ident = false → exec (.linkTrained port lanes) s = .next s) ∧
    (portTrains q = true → q.attempts + 1 < 3 → ∃ u, exec (.linkTrained port 0) s = .next u ∧ OnlyPort port s u ∧
      u.fab.ports[port]? = some { q with attempts := q.attempts + 1, ident := false, lmsgOut := q.lmsgOut ++ [padTo 64 s.ident] }) ∧
    (q.st = .active ∨ q.st = .degraded → q.txeqOut = [] → q.cal = none → 1 ≤ q.width →
      (∀ t, q.calUs = some t → s.clk.nowUs < t + 600000000 → ∀ count, exec (.opticalCalibration port count) s = .next s) ∧
      (q.calUs = none → ∀ count, ∃ u y, exec (.opticalCalibration port count) s = .next u ∧ OnlyPort port s u ∧
        u.fab.ports[port]? = some y ∧ y.calUs = some s.clk.nowUs ∧ y.rxSet = q.rxSet ∧ y.txeqOut.length = 1 ∧ ∃ c, y.cal = some c ∧
          c.lanes.head? = some q.lane ∧ c.lanes.length = q.width ∧ c.base = some count ∧ c.setting = 0 ∧ c.up = true)) ∧
    (∀ c b lane count, q.st = .active ∨ q.st = .degraded → q.txeqOut = [] → q.cal = some c → c.base = some b →
      c.lanes.head? = some lane → 5 < c.setting →
      ∃ u y, exec (.opticalCalibration port count) s = .next u ∧ OnlyPort port s u ∧ u.fab.ports[port]? = some y ∧
        { y with rxSet := q.rxSet, cal := q.cal } = q ∧
        (b ≤ count → c.up = true → y.cal = some { c with up := false } ∧
          y.rxSet = stepSetting (stepSetting q.rxSet lane c.setting false) lane c.setting false) ∧
        (count < b → c.setting + 1 < 6 + Config.rxSettings → y.cal = some { c with base := some count, setting := c.setting + 1, up := true } ∧
          y.rxSet = stepSetting q.rxSet lane (c.setting + 1) true) ∧
        (b ≤ count → c.up = false → 6 + Config.rxSettings ≤ c.setting + 1 → y.rxSet = stepSetting q.rxSet lane c.setting true ∧
          (c.lanes.length = 1 → y.cal = none) ∧
          (∀ l2 r, c.lanes = lane :: l2 :: r → y.cal = some { lanes := l2 :: r, base := none, setting := 0, up := true })))

/-- 11 R360, R372 to R374, R380: PACKET_FORWARD takes the oldest packet of a port and discards it at TTL 0, delivers it at its
destination in phase 1, where its slots stay in use until the endpoint takes it, or puts it behind the packets of the port of
the first coordinate that differs, in its ROUTE direction, with DCLASS kept only on the same axis; a packet is sent with DCLASS
1 on a wrapping link, and with credits for all its slots.
What a packet at a DOWN port records, and which slots a credit names first, are readings of the model's (log entries 71 and
123). -/
def Obligations.RouterForwards : Prop :=
  (∀ self p k, firstPort self p = some k → ∃ ax, ax < 3 ∧ k = 2 * ax + (k % 2) ∧
    ∀ t, t = (if p.phase then p.dest else p.inter) → coord self ax ≠ coord t ax ∧ (∀ b, b < ax → coord self b = coord t b) ∧
      (k % 2 = 1 ↔ bitOf (if p.phase then p.route.toNat / 8 else p.route.toNat) ax = true)) ∧
  (∀ (wrap : Bool) (q q1 : Port), portPick wrap q = some q1 → ∃ p x, p ∈ q.outq ∧ x = { p with dclass := p.dclass || wrap } ∧
    q1.txPart = pktFrameSlots x ∧ q1.outq = q.outq.erase p ∧ pktSlots x ≤ q.credits.getD (pktCls x) 0 + q.shared) ∧
  ∀ (s : State) (port self : Nat) (q : Port) (p x : Pkt) (rest : List Pkt), s.fab.ports[port]? = some q →
    s.fab.modId = some self → q.inq = p :: rest → x = phaseTurn self { p with ttl := p.ttl - 1 } →
    (p.ttl ≤ 1 → ∃ u, exec (.packetForward port) s = .next u ∧ OnlyPort port s u ∧
      u.fab.ports[port]? = some { q with inq := rest, freed := modAt q.freed (pktCls p) (· + pktSlots p)
                                         used := modAt q.used (pktCls p) (· - pktSlots p) }) ∧
    (1 < p.ttl → p.phase = true → p.dest = self → knownType p.ty = true →
      (s.fab.triples.find? fun y => y.src == p.src && y.vc == p.vc) = none →
      ∃ u, exec (.packetForward port) s = .next u ∧ SameBut [.fab] s u ∧
        u.fab.rx = s.fab.rx ++ [{ p with ttl := p.ttl - 1, held := some (port, pktCls p) }] ∧
        u.fab.ports[port]? = some { q with inq := rest }) ∧
    (∀ d k o m, 1 < p.ttl → x.phase = false ∨ x.dest ≠ self → s.fab.dims = some d → firstPort self x = some k →
      s.fab.ports[k]? = some o → o.st = .active ∨ o.st = .degraded ∨ o.st = .sleep → o.mute = false → o.partner = some m →
      beyond d self m (if x.phase then x.dest else x.inter) k = false →
      ∃ u y z, exec (.packetForward port) s = .next u ∧ SameBut [.fab] s u ∧ u.fab.ports[port]? = some y ∧ y.inq = rest ∧
        u.fab.ports[k]? = some z ∧ z.outq = o.outq ++ [{ x with dclass := x.dclass && k / 2 == port / 2 }] ∧
        ∀ j, j ≠ port → j ≠ k → u.fab.ports[j]? = s.fab.ports[j]?)

/-- 11 R349, R350, R351, R409, R415, R416, R418: the module ID from origin and slot map, once; merging of map entries (the
higher generation wins, at equal ones LIVE = 0); opening and closing of the sluices; recomputation of routes with
MAP_CHANGED at most once in 100 ms.
That a sluice moves by its rows alone is a reading of the model's (log entry 93). -/
def Obligations.IdentityMapAndSluices : Prop :=
  (∀ a b, (a.2 < b.2 → mergeEntry a b = b) ∧ (b.2 < a.2 → mergeEntry a b = a) ∧
    (a.2 = b.2 → mergeEntry a b = (a.1 && b.1, a.2))) ∧
  ∀ s : State,
    (∀ d e o, s.fab.modId = none → s.fab.dims = some d → s.pow.stage = 2 → s.pow.episode ≠ some true →
      s.fab.originValid = true → e = s.fab.slotMap.getD s.fab.slotId (0, 0, 0) → o = s.fab.origin.toNat →
      1 ≤ d.1 → d.1 ≤ 32 → 1 ≤ d.2.1 → d.2.1 ≤ 32 → 1 ≤ d.2.2 → d.2.2 ≤ 32 →
      ∃ i, exec .moduleIdFix s = .next { s with fab := { s.fab with modId := some i } } ∧
        i = (coord o 0 + e.1) % d.1 * 1024 + (coord o 1 + e.2.1) % d.2.1 * 32 + (coord o 2 + e.2.2) % d.2.2 ∧
        coord i 0 = (coord o 0 + e.1) % d.1 ∧ coord i 1 = (coord o 1 + e.2.1) % d.2.1 ∧ coord i 2 = (coord o 2 + e.2.2) % d.2.2) ∧
    (∀ i, s.fab.modId = some i → exec .moduleIdFix s = .next s) ∧
    (∀ port q m l, s.fab.ports[port]? = some q → q.lmsgIn.find? (fun m => fld m 0 1 == 2) = some m →
      l = ((List.range (min 15 (fld m 1 1))).map fun i =>
        (fld m (4 + 4 * i) 2 % 0x8000, decide (0x8000 ≤ fld m (4 + 4 * i) 2), fld m (6 + 4 * i) 2)) →
      ∃ u, exec (.mapMsg port) s = .next u ∧ u.fab.routeMap = s.fab.routeMap ∧ ∀ id, mapEntry u.fab.fmap id =
        (l.filter fun e => e.1 == id).foldl (fun a e => mergeEntry a e.2) (mapEntry s.fab.fmap id)) ∧
    (∀ self d, s.fab.modId = some self → s.fab.sluices = false → s.domOn 1 = true → s.pow.episode ≠ some true →
      s.fab.dims = some d → s.fab.loopback = true →
      ∃ u, exec .sluiceOpen s = .next u ∧ SameBut [.fab] s u ∧ u.fab.sluices = true ∧
        u.fab.ownGen = (s.fab.ownGen + 1) % 65536 ∧ mapEntry u.fab.fmap self = (true, u.fab.ownGen)) ∧
    (s.domOn 1 = false ∨ s.pow.episode = some true →
      exec .sluiceClose s = .next { s with fab := { s.fab with sluices := false } }) ∧
    (s.fab.fmap ≠ s.fab.routeMap → ∃ u, exec .routeRecompute s = .next u ∧ SameBut [.fab, .tel] s u ∧
      u.fab.routeMap = s.fab.fmap ∧ u.fab.fmap = s.fab.fmap ∧
      (∀ t, s.fab.mapEventUs = some t → s.clk.nowUs < t + 100000 → u.tel = s.tel) ∧
      (s.fab.mapEventUs = none → u.tel.events.head?.map (·.code) = some 0x0024 ∧ u.fab.mapEventUs = some s.clk.nowUs))

/-! ### Requests between modules (11, 16) -/

/-- 11 R389, R390, R393, R395; 16 R563: requests at their destination. A request that is not admitted, or reaches memory
that is off, is answered with its status and writes nothing; an admitted one, over memory that is ready and without
errors, reads its bytes, writes its payload, or replaces an atomic's word, and no other byte; PDATA adds its payload. The
answers echo the tag on VC6 (`answer`).
Which requests are in progress when a job ends, and the place of an atomic's operands, are readings of the model's (log
entries 23 and 84). -/
def Obligations.RequestsAreServed : Prop :=
  ∀ (s s1 : State) (p : Pkt) (a : Nat), a = p.a.toNat → s.mem.lineErr = [] →
    (s.takeRx (fun p => p.ty == 1) = some (p, s1) →
      (∀ st, s1.requestStatus p 1 p.len = st → st ≠ stOK → exec .readReq s = .next (s1.answer p 4 st s1.fab.wgen.toNat [])) ∧
      (1 ≤ p.len → s1.requestStatus p 1 p.len = stOK → hbmAny (fun g => !s1.groupReady g) a p.len = false →
        exec .readReq s = .next (s1.answer p 4 stOK s1.fab.wgen.toNat (s1.bytesAt a p.len)))) ∧
    (s.takeRx (fun p => p.ty == 2) = some (p, s1) →
      (∀ st, s1.requestStatus p 2 p.payload.length = st → st ≠ stOK → exec .writeReq s = .next (s1.answer p 5 st 0 [])) ∧
      (p.payload ≠ [] → s1.requestStatus p 2 p.payload.length = stOK →
        hbmAny (fun g => !s1.groupReady g) a p.payload.length = false →
        ∃ v : State, exec .writeReq s = .next (v.answer p 5 stOK 0 []) ∧ SameBut [.mem, .fab] s1 v ∧
          v.bytesAt a p.payload.length = p.payload ∧ KeepsOutside a p.payload.length s1 v)) ∧
    (∀ op kind n old, op = p.code % 16 → kind = p.code / 16 % 4 → n = (if kind % 2 = 0 then 4 else 8) → old = s1.numAt a n →
      s.takeRx (fun p => p.ty == 3) = some (p, s1) → 1 ≤ op → op ≤ 4 → s1.requestStatus p 4 n = stOK →
      hbmAny (fun g => !s1.groupReady g) a n = false →
      ∃ v : State, exec .atomicReq s = .next (v.answer p 6 stOK 0 (toLE 8 old)) ∧ SameBut [.mem, .fab] s1 v ∧
        KeepsOutside a n s1 v ∧
        (op = 1 → v.numAt a n = (old + fld p.payload 0 8) % 2 ^ (8 * n)) ∧
        (op = 2 → kind < 2 → v.numAt a n = min old (fld p.payload 0 8 % 2 ^ (8 * n))) ∧
        (op = 3 → kind < 2 → v.numAt a n = max old (fld p.payload 0 8 % 2 ^ (8 * n))) ∧
        (op = 4 → v.numAt a n = if old = fld p.payload 8 8 % 2 ^ (8 * n) then fld p.payload 0 8 % 2 ^ (8 * n) else old)) ∧
    (∀ j off pos seg z g, s.takeRx (fun p => p.ty == 0x15) = some (p, s1) →
      (s1.work.jobs.find? fun j => j.live && s1.trains j && j.guards p.src) = some j → off = a % 2 ^ 32 →
      pos = a / 2 ^ 32 % 256 → seg = a / 2 ^ 40 → z = s1.segBytes j j.guardK → pos < 32 → off % 512 = 0 →
      off + p.payload.length ≤ z → seg < j.guardK →
      parityHost j.members.length j.guardK (j.members.idxOf p.src / j.guardK) seg (bitOf pos 4) = j.rank →
      g = s1.genAt j (p.j.toNat % 2) + (if bitOf pos 4 then z else 0) + off → j.restore = none → p.j.toNat ≤ j.nextStep →
      hbmAny s1.groupOff g p.payload.length = false → hbmAny (fun i => !s1.groupReady i) g p.payload.length = false →
      (s1.load 6 g p.payload.length).2 ≠ none →
      ∃ v : State, exec .pdata s = .next (v.answer p 5 stOK 0 []) ∧ KeepsOutside g p.payload.length s1 v ∧
        v.bytesAt g p.payload.length = gfAdd (s1.bytesAt g p.payload.length)
          (if bitOf pos 4 then gfScale (gfPow 2 (pos % 16)) p.payload else p.payload))

/-- 11 R391, R399 to R401, R404 to R408; 16 R579, R581; 17 R613: responses and losses at the source. A response completes
the request that its tag and sender name; a fence read counts and drops the peer's buffered lines; a gap, a BREAK and a
missing response break the triple and lose its requests, and a collective whose acknowledgements do not come ends. A member's holdings and its word that its restore is done are
kept. What waited then goes on (`settle`).
What a fence waits for, which request CONTROL_RSP answers, and the bytes of HOLDINGS are readings of the model's (log
entries 75, 76 and 86). -/
def Obligations.ResponsesAndLosses : Prop :=
  ∀ (s s1 s2 : State) (p : Pkt) (r : Remote) (ty : Nat),
    (s.takeRx (fun p => p.ty == ty) = some (p, s1) →
      s1.takeRemote (fun r => r.tag == p.tag && r.dest == p.src && r.what.rsp == ty) = some (r, s2) → p.code = stOK →
      (∀ t addr y, ty = 4 → r.what = .unitRead t addr → s.tiles[t]? = some y →
        ∃ v z, exec .readRsp s = .next v.settle ∧ SameBut [.tiles, .fab] s v ∧ v.tiles[t]? = some z ∧
          z.xuNet.waiting = y.xuNet.waiting - 1 ∧ z.xuNet.got = y.xuNet.got ++ [(addr, p.payload)] ∧
          v.peerWgen p.src = some (BitVec.ofNat 32 p.a.toNat)) ∧
      (∀ mv ch x q b, r.what.chan = some (mv, ch) → s.chan? mv ch = some x → x.reqs.head? = some q → x.act = some b →
        (ty = 5 → r.what = .write mv ch → ∃ v : State, exec .writeAck s = .next v.settle ∧ SameBut [.tiles, .hubMover, .fab] s v ∧
          v.chan? mv ch = some { x with act := some { b with waiting := b.waiting - 1 } }) ∧
        (∀ kind, ty = 6 → r.what = .atomic mv ch 0 kind → ∃ v : State, exec .atomicRsp s = .next v.settle ∧
          SameBut [.tiles, .hubMover, .fab] s v ∧
          v.chan? mv ch = some { x with act := some { b with waiting := b.waiting - 1 } }))) ∧
    (∀ uid rc, s.takeRx (fun p => p.ty == 0x21) = some (p, s1) →
      s1.takeRemote (fun r => r.dest == p.src && r.what.answers p.j) = some (r, s2) → p.a = 0 → p.b23 = 0 → p.flagRsv = 0 →
      p.len = 0 → r.what = .reset uid p.j → s2.host.running.find? (fun c => c.uid == uid) = some rc →
      Replies (exec .controlRsp s) s2 rc p.code 0 0 0) ∧
    (∀ peer self d, s.fab.modId = some self → s.fab.dims = some d → inTorus d peer = true →
      (∀ q ∈ s.fab.remotes, q.dest = peer → q.what.rsp ≠ 6 ∧ (∀ mv ch, q.what ≠ .write mv ch) ∧ ∀ t, q.what ≠ .unitWrite t) →
      ∃ u, exec (.peerFence peer) s = .next u ∧ SameBut [.fab, .host] s u ∧ u.fab.fenceCount = s.fab.fenceCount + 1 ∧
        u.host.readData = toLE 8 u.fab.fenceCount.toNat ∧ ∀ b ∈ u.fab.readBuf, b.peer ≠ peer) ∧
    (∀ src vc t, s.fab.triples.find? (fun t => t.src == src && t.vc == vc) = some t → t.held ≠ [] →
      ∃ v : State, exec (.gapTimeout src vc) s = .next v.settle ∧
        v.fab.triples.find? (fun t => t.src == src && t.vc == vc) = some { t with held := [], broken := true } ∧
        s.tel.eventSerial < v.tel.eventSerial) ∧
    (∀ vc, s.takeRx (fun p => p.ty == 7) = some (p, s1) → ctlFieldsOk p 32 0 = true → vc = p.a.toNat % 256 → vc < 8 →
      p.a.toNat / 256 % 256 = 0 → p.j = 0 →
      ∃ v : State, exec .brk s = .next v.settle ∧ (p.src, vc) ∈ v.fab.resync ∧
        ∀ q ∈ v.fab.remotes, ¬(q.dest = p.src ∧ q.vc = vc)) ∧
    (∀ tag, s.fab.remotes.find? (fun r => r.tag == tag) = some r →
      ∃ v : State, exec (.responseTimeout (.request tag)) s = .next v.settle ∧ (r.dest, r.vc) ∈ v.fab.resync ∧
        ∀ q ∈ v.fab.remotes, q.tag ≠ tag) ∧
    (∀ rid x m, s.coll? rid = some x → (s.cas.retain.any fun k => k.rid == rid && k.pkt.dest == m) = true →
      ((s.group? x.gid).any fun g => g.members.contains m) = true →
      ∃ v : State, exec (.responseTimeout (.collective rid)) s = .next v.settle ∧ (m, x.vc) ∈ v.fab.resync ∧
        ∀ y ∈ v.cas.colls, y.rid ≠ rid) ∧
    (∀ j, s1.jobOfPkt p = some j → p.src ∈ j.members →
      (s.takeRx (fun p => p.ty == 0x2D) = some (p, s1) → ctlFieldsOk p 32 64 = true → j.live = true → j.restore = none →
        exec .holdings s = .next (s1.onJob j.handle fun x => { x with early :=
          (x.early.filter fun e => e.1 != j.members.idxOf p.src) ++ [(j.members.idxOf p.src, holdingsOf p.payload)] })) ∧
      (∀ x, s.takeRx (fun p => p.ty == 0x22) = some (p, s1) → ctlFieldsOk p 0 8 = true → j.restore = some x →
        s1.job? j.handle = some j →
        ∃ v : State, exec .restoreDone s = .next v.settle ∧ SameBut [.work] s1 v ∧
          v.job? j.handle = some { j with restore := some { x with done := x.done ++ [p.src] } }))

/-! ### Groups and collectives (12) -/

/-- 12 R421 to R424, R426, R457, R459: GROUP_CREATE, GROUP_DESTROY, COLLECTIVE and RESHARD, once their checks pass. A group
of one member is ready at once, a larger one waits for its announcements; a group with nothing outstanding goes, another is
`destroying` until its collectives end; a COLLECTIVE or RESHARD joins those of its channel, and channels start what they can.
Which states of a job run, and bytes that no rule constrains, are readings of the model's (log entries 38, 78, 80 and
82). -/
def Obligations.GroupAndCollectiveCommands : Prop :=
  ∀ (s s1 : State) (att ring gid n : Nat) (rc : RunCmd) (c : Cmd), gid = c.f 16 2 →
    (∀ t j ids g, n = c.f 24 4 → s.starts 0x0301 .inline att ring rc c s1 → c.z 22 2 = true → c.z 28 4 = true → c.z 40 24 = true →
      gid < 4096 → 1 ≤ c.f 18 1 → c.f 18 1 ≤ 4 → c.f 19 1 ≤ 1 → 1 ≤ n → n ≤ 32768 → s1.tenant? c.tenant = some t →
      inPart t false false (c.f 32 8) (2 * n) = true → s1.cmdRead (c.f 32 8) (2 * n) = (s1, stOK) →
      ids = s1.idsAt (c.f 32 8) n → s1.job? (c.f 20 2) = some j → j.tenant = c.tenant → j.st = .running ∨ j.st = .paused →
      s1.membersOk ids = true → (∀ m ∈ ids, m ∈ j.members) → (∀ x ∈ s1.cas.groups, x.gid ≠ gid ∧ x.st ≠ .creating) →
      s1.cas.groups.length < 4096 →
      g = { gid := gid, vc := c.f 18 1, low := c.f 19 1 == 1, job := j.handle, members := ids,
            rank := ids.idxOf (s1.fab.modId.getD 0), digest := groupDigest gid (c.f 18 1) (c.f 19 1) j.jobId ids [],
            st := .creating, step := false, issued := 0, doomed := [] } →
      (n = 1 → ∃ v : State, Replies (exec (.groupCreate att ring) s) v rc stOK g.rank (fld g.digest 0 8) 0 ∧
        SameBut [.cas] s1 v ∧ v.cas.groups = s1.cas.groups ++ [{ g with st := .ready }]) ∧
      (1 < n → (∀ e ∈ s1.cas.announced, e.1 ≠ gid) → (∀ m ∈ ids, s1.alive m = true) →
        ∃ v : State, Waits (exec (.groupCreate att ring) s) v rc (.groupCreate gid) ∧ SameBut [.cas, .fab] s1 v ∧
          v.cas.groups = s1.cas.groups ++ [g])) ∧
    (∀ g j, s.starts 0x0302 .inline att ring rc c s1 → c.z 18 46 = true → gid < 4096 → s1.group? gid = some g →
      s1.job? g.job = some j → j.tenant = c.tenant → g.step = false →
      (g.st ≠ .ready → Replies (exec (.groupDestroy att ring) s) s1 rc stBusy 0 0 0) ∧
      (g.st = .ready → (∀ r ∈ s1.cas.colls, r.gid ≠ gid) →
        ∃ v : State, Replies (exec (.groupDestroy att ring) s) v rc stOK 0 0 0 ∧ SameBut [.cas] s1 v ∧
          v.cas.groups = s1.cas.groups.filter fun x => x.gid != gid) ∧
      (∀ r ∈ s1.cas.colls, g.st = .ready → r.gid = gid →
        ∃ v : State, Waits (exec (.groupDestroy att ring) s) v rc (.groupDestroy gid) ∧ SameBut [.cas] s1 v ∧
          v.group? gid = some { g with st := .destroying })) ∧
    (∀ g p r, s.starts 0x0303 .inline att ring rc c s1 → p = collPar c.par → s1.group? p.gid = some g → g.st = .ready →
      (s1.job? g.job).any (fun j => j.tenant == c.tenant) = true → p.ok c.par g.members.length = true → p.op ≠ 5 →
      r = p.run s1.clk.nextId c.tenant g.vc (.command c.uid) none [] s1.clk.nowUs → s1.collStatus r g = stOK →
      exec (.collective att ring) s =
        .next ([1, 2, 3, 4].foldl State.startNext ((s1.fresh.2.addColl r).ends rc (.wait (.collective r.rid))))) ∧
    (s.starts 0x0303 .inline att ring rc c s1 → s1.group? (collPar c.par).gid = none →
      exec (.collective att ring) s = .next ([1, 2, 3, 4].foldl State.startNext (s1.finish rc stBadParam 0 0 0))) ∧
    ∀ g (p : CollPar) r t k, s.starts 0x0304 .inline att ring rc c s1 → s1.group? gid = some g → g.st = .ready → k = c.f 32 4 →
      c.z 18 6 = true → c.z 36 4 = true → 1 ≤ k → k ≤ 2 ^ 20 → (s1.job? g.job).any (fun j => j.tenant == c.tenant) = true →
      s1.tenant? c.tenant = some t → inPart t false false (c.f 24 8) (32 * k) = true →
      inPart t false false (c.f 40 8) (c.f 56 8) = true → inPart t false true (c.f 48 8) (c.f 56 8) = true →
      (overlaps (c.f 40 8) (c.f 56 8) (c.f 48 8) (c.f 56 8) = true →
        exec (.reshard att ring) s = .next ([1, 2, 3, 4].foldl State.startNext (s1.finish rc stBadParam 0 0 0))) ∧
      (overlaps (c.f 40 8) (c.f 56 8) (c.f 48 8) (c.f 56 8) = false → s1.cmdRead (c.f 24 8) (32 * k) = (s1, stOK) →
        p = { gid := g.gid, op := 5, wire := 1, sfmt := 1, dfmt := 1, src := c.f 40 8, dst := c.f 48 8, count := k,
              aux := c.f 24 8, arg := 0 } →
        r = p.run s1.clk.nextId c.tenant g.vc (.command c.uid) (some (c.f 56 8)) (s1.moveTable (c.f 24 8) k) s1.clk.nowUs →
        s1.collStatus r g = stOK → exec (.reshard att ring) s =
          .next ([1, 2, 3, 4].foldl State.startNext ((s1.fresh.2.addColl r).ends rc (.wait (.collective r.rid)))))

/-- 12 R429, R431 to R437, R441, R442: shards are consecutive and hold every element; residues add up as the values do; the
adder of the H32 wire is the H32 sum, and of the S16 wire that sum rounded. -/
def Obligations.ShardsAndResidues : Prop :=
  (∀ count unit n, 1 ≤ unit → 1 ≤ n → shardLo count unit n 0 = 0 ∧ count ≤ shardLo count unit n n ∧
    shardLo count unit n n < count + unit ∧ ∀ i, shardLo count unit n i ≤ shardLo count unit n (i + 1)) ∧
  (∀ n m e k l f, residue (Val.add (.fin n m e) (.fin k l f)) = (residue (.fin n m e) + residue (.fin k l f)) % 7) ∧
  (∀ a, residue a < 7) ∧
  (∀ low s lo hi, lo < hi → lo ≤ placeRank low s lo hi ∧ placeRank low s lo hi < hi) ∧
  ∀ rto n a b, a.length = 4 → b.length = 4 →
    addElem 4 rto n a b = toLE 4 (hAdd (BitVec.ofNat 32 (leNat a)) (BitVec.ofNat 32 (leNat b))).toNat

/-- 12 R443 to R446, R451, R456, R461: a waiting collective of a channel starts, unless 16 are outstanding on it; a data
packet goes to the oldest outstanding instance that has its stream; an adder that has both its inputs adds them and sends the
sum on, and one whose check fails sends nothing, counts a residue fault and asks again; a delivery writes its bytes. The instance is not
one that has been stopped, or whose residue fault another member has told of (log entry 19). -/
def Obligations.CollectivesStartAndAdd : Prop :=
  ∀ (s s1 : State),
    (∀ vc, (16 ≤ (s.cas.colls.filter fun r => r.vc == vc && r.started).length ∨ (∀ r ∈ s.cas.colls, r.vc = vc → r.started = true) →
        exec (.collStart vc) s = .next s) ∧
      ∀ r g l, (s.cas.colls.filter fun r => r.vc == vc && r.started).length < 16 →
        s.cas.colls.find? (fun r => r.vc == vc && !r.started) = some r → s.coll? r.rid = some r → s.group? r.gid = some g →
        (∀ m ∈ g.members, s.alive m = true) → g.doomed = [] → s.cas.pathFenced = [] →
        (∀ e ∈ r.reads g ++ r.writes g, hbmAny s.groupOff e.1 e.2 = false ∧ hbmAny (fun t => !s.groupReady t) e.1 e.2 = false) →
        s.mem.lineErr = [] → s.mem.wordErr = [] → s.mem.deadPages = [] →
        l = (if r.adds then (r.shards g.members.length).flatMap (addersOf g) else []) →
        ∃ v y, exec (.collStart vc) s = .next v.pump ∧ SameBut [.cas] s v ∧ v.coll? r.rid = some y ∧ y.started = true ∧
          y.adders = l ∧ y.out = s.collSends r g ∧ y.recv = r.expects g ∧ v.cas.retain = s.cas.retain ∧
          v.cas.colls.length = s.cas.colls.length) ∧
    (∀ upset p rid i up r g a b pq,
      s.takeRx (fun p => p.ty == 0x10 && ((s.collPlace p).isSome || (s.unexpected p).isSome)) = some (p, s1) →
      s1.collPlace p = some (.adder rid i up) → s1.coll? rid = some r → s1.group? r.gid = some g → r.adders[i]? = some a →
      pkResent p = false → r.halted = false → a.lower.resend = false → a.upper.resend = false → a.lower.q = (if up then [pq] else []) →
      a.upper.q = (if up then [] else [pq]) → r.arrivalOk p = true → r.arrivalOk pq = true →
      b = addPayload r.kind (above g.members.length a.lo a.hi).isSome g.members.length (if up then pq else p).payload
        (if up then p else pq).payload →
      (upset = false → ∃ v y z, exec (.cdata upset) s = .next v.pump.settle ∧ SameBut [.cas, .fab] s1 v ∧
        v.coll? rid = some y ∧ y.out = r.out ++ r.outputs g a (pkLastp (if up then pq else p)) b ∧ y.faults = r.faults ∧
        y.adders[i]? = some z ∧ z.lower.q = [] ∧ z.upper.q = [] ∧ v.cas.residueFaults = s1.cas.residueFaults) ∧
      (upset = true → s1.cas.pathFails = [] → ∃ v y z, exec (.cdata upset) s = .next v.pump.settle ∧
        SameBut [.cas, .fab, .tel] s1 v ∧ v.coll? rid = some y ∧ y.out = r.out ∧ y.faults = r.faults + 1 ∧
        y.adders[i]? = some z ∧ z.lower.resend = true ∧ z.upper.resend = true ∧
        v.cas.residueFaults = s1.cas.residueFaults + 1 ∧
        v.tel.events.head?.map (·.code) = some 0x0030)) ∧
    ∀ p rid i r g x uid, s.takeRx (fun p => p.ty == 0x11 && ((s.collPlace p).isSome || (s.unexpected p).isSome)) = some (p, s1) →
      s1.collPlace p = some (.recv rid i) → s1.coll? rid = some r → s1.group? r.gid = some g → r.recv[i]? = some x →
      r.op = 4 ∨ r.op = 6 → r.who = .command uid → pkResent p = false → x.resend = false → x.q = [] → r.arrivalOk p = true →
      r.dst + x.pos + p.payload.length ≤ hbmEnd → s1.mem.lineErr = [] →
      ∃ v y z, exec .gdata s = .next v.pump.settle ∧ SameBut [.mem, .cas, .fab] s1 v ∧
        v.bytesAt (r.dst + x.pos) p.payload.length = p.payload ∧ KeepsOutside (r.dst + x.pos) p.payload.length s1 v ∧
        v.coll? rid = some y ∧ y.recv[i]? = some z ∧ z.q = [] ∧ z.pos = x.pos + p.payload.length ∧ z.ended = pkLastp p

/-- 11 R380; 12 R423, R444, R445, R450, R457, R458, R462, R464, R465, R470: announcements, answers and notices. An announcement
of a job that the module holds is kept, another is discarded, and the last one completes the group; CHECK_ACK frees the
oldest kept packet of its stream and RESEND_REQ sends it again, RESENT; LANDED takes the first range sent to its sender;
ABANDON ends every instance of the group; a collective that has made no progress for 10 s is recorded, another is not.
The form of the packet that tells of a residue fault is the model's choice (log entry 19): it ends the instance it numbers,
or dooms it where it has not been issued. -/
def Obligations.CollectiveAnswers : Prop :=
  ∀ (s s1 : State) (p : Pkt),
    (s.takeRx (fun p => p.ty == 0x28) = some (p, s1) → s1.jobOfPkt p = none → exec .groupAnnounce s = .next s1) ∧
    (∀ gid, s.takeRx (fun p => p.ty == 0x28) = some (p, s1) → ctlFieldsOk p 12 16 = true → gid = p.a.toNat % 2 ^ 12 →
      (s1.jobOfPkt p).isSome = true →
      (s1.group? gid = none → ∃ u, exec .groupAnnounce s = .next u ∧ SameBut [.cas] s1 u ∧ u.cas.groups = s1.cas.groups ∧
        (gid, p.src, p.payload) ∈ u.cas.announced) ∧
      ∀ g, s1.group? gid = some g → g.st = .creating → g.step = false → p.src ∈ g.members → g.digest = p.payload →
        (∀ e ∈ s1.cas.announced, e.1 = gid → e.2.2 = g.digest) →
        (∀ m ∈ g.members, s1.fab.modId = some m ∨ m = p.src ∨ (gid, m, g.digest) ∈ s1.cas.announced) →
        (∀ j, s1.job? g.job = some j → j.restore = none) →
        ∃ v : State, exec .groupAnnounce s = .next (v.finishWait (.groupCreate gid) stOK g.rank (fld g.digest 0 8) 0) ∧
          SameBut [.cas] s1 v ∧ v.group? gid = some { g with st := .ready }) ∧
    (∀ gid g, s.takeRx (fun p => p.ty == 0x2B) = some (p, s1) → ctlFieldsOk p 12 0 = true → (s1.jobOfPkt p).isSome = true →
      gid = p.a.toNat % 2 ^ 12 → s1.group? gid = some g → p.src ∈ g.members →
      ∃ v : State, exec .abandon s = .next v.settle ∧ ∀ r ∈ v.cas.colls, r.gid ≠ gid) ∧
    (∀ l1 l2 k, s.takeRx (fun p => p.ty == 0x12) = some (p, s1) → s1.cas.retain = l1 ++ k :: l2 → sameStream k.pkt p = true →
      (∀ x ∈ l1, sameStream x.pkt p = false) →
      ∃ v : State, exec .checkAck s = .next v.pump.settle ∧ SameBut [.cas] s1 v ∧ v.cas.retain = l1 ++ l2 ∧
        v.cas.colls = s1.cas.colls) ∧
    (∀ k, s.takeRx (fun p => p.ty == 0x13) = some (p, s1) →
      pkLastp p = false → s1.cas.retain.find? (fun k => sameStream k.pkt p) = some k →
      exec .resendReq s = .next (s1.send { k.pkt with a := k.pkt.a ||| BitVec.ofNat 48 (2 ^ 20) }).1) ∧
    (∀ g k, s.takeRx (fun p => p.ty == 0x13) = some (p, s1) → pkLastp p = true → s1.group? (pkGid p) = some g →
      p.src ∈ g.members → k = resVal 16 (p.j.toNat % 2 ^ 48) →
      (g.issued ≤ k → ∃ u, exec .resendReq s = .next u ∧ SameBut [.cas] s1 u ∧
        u.group? (pkGid p) = some { g with doomed := g.doomed ++ [k] }) ∧
      ∀ r, k < g.issued → s1.cas.colls.find? (fun r => r.gid == g.gid && r.ord == k) = some r →
        ∃ v : State, exec .resendReq s = .next v.settle ∧ ∀ x ∈ v.cas.colls, x.rid ≠ r.rid) ∧
    (∀ n, n < 7 ^ 16 → resVal 16 (resNum 16 n) = n) ∧
    (∀ g i r, s.takeRx (fun p => p.ty == 0x14) = some (p, s1) → s1.group? (pkGid p) = some g → s1.coll? r.rid = some r →
      s1.cas.colls.find? (fun r => r.gid == g.gid && !(r.landingAt (g.members.idxOf p.src)).isEmpty) = some r →
      (r.landingAt (g.members.idxOf p.src)).head? = some i →
      ∃ v : State, exec .landed s = .next v.pump.settle ∧ SameBut [.cas] s1 v ∧
        v.coll? r.rid = some { r with landing := r.landing.filter fun k => k != i }) ∧
    (∀ rid r, s.coll? rid = some r → s.clk.nowUs < r.progressUs + 10000000 → exec (.collectiveStall rid) s = .next s) ∧
    (∀ rid r, s.coll? rid = some r → r.started = true → r.progressUs + 10000000 ≤ s.clk.nowUs → ∃ u e, exec (.collectiveStall rid) s = .next u ∧ SameBut [.tel] s u ∧
      u.tel.events.head? = some e ∧ e.code = 0x0034 ∧ e.tile = 0xFF ∧ e.quantity = 0 ∧ e.requested = BitVec.ofNat 32 r.gid) ∧
    ∀ job j k, s.job? job = some j → j.openStep = some k → j.summed = false → s.skipsNonFinite j = true → s.reduced j = true →
      (∀ r ∈ s.cas.colls, r.who ≠ .sum job) → j.st = .running ∨ j.st = .pausing →
      ∃ v r, exec (.skipCountSum job) s = .next ((v : State).startNext 1).settle ∧ SameBut [.cas, .clk] s v ∧
        v.cas.colls = s.cas.colls ++ [r] ∧ r.op = 9 ∧ r.gid = j.stepGroup ∧ r.count = 1 ∧ r.vc = 1 ∧ r.who = .sum job ∧
        r.started = false

/-! ### Plans, jobs and steps (02, 07, 16) -/

/-- 02 R60 to R62; 07 R256 to R258: PLAN_LOAD and KERNEL_LAUNCH, once their checks pass. The plan's handle is one that no
plan of the tenant has, and the reply gives it with the tile count; the kernel runs on the tiles of its mask with the seed,
step and run limit of the command, and the reply waits for its end.
That a handle is the lowest free one is the model's choice (log entry 35). -/
def Obligations.PlansAndKernels : Prop :=
  ∀ (s s1 : State) (att ring : Nat) (rc : RunCmd) (c : Cmd) (t : Tenant), s1.tenant? c.tenant = some t →
    (∀ a n tc, s.starts 0x0101 .inline att ring rc c s1 → a = c.f 16 8 → n = c.f 24 8 → c.z 32 32 = true → n ≠ 0 →
      inPart t false true a n = true → s1.cmdRead a n = (s1, stOK) → tc = s1.planTiles a →
      (s1.planOk a n = false → Replies (exec (.planLoad att ring) s) s1 rc stBadParam 0 0 0) ∧
      (s1.planOk a n = true → 16 ≤ t.plans.length ∨ popCount 8 t.tiles.toNat < tc →
        Replies (exec (.planLoad att ring) s) s1 rc stNoResource 0 0 0) ∧
      (s1.planOk a n = true → t.plans.length < 16 → tc ≤ popCount 8 t.tiles.toNat → ∃ (v : State) (p : Plan),
        Replies (exec (.planLoad att ring) s) v rc stOK (p.handle + tc * 2 ^ 16) 0 0 ∧ 1 ≤ p.handle ∧ p.handle ≤ 16 ∧
        (∀ q ∈ t.plans, q.handle ≠ p.handle) ∧ p.addr = a ∧ p.len = n ∧ p.kind = s1.planKind a ∧
        p.tiles = (tileList t.tiles.toNat).take tc ∧ v.tenant? c.tenant = some { t with plans := t.plans ++ [p] } ∧
        v.work = s1.work)) ∧
    ∀ img args tiles, s.starts 0x0107 .inline att ring rc c s1 → img = c.f 16 8 → args = c.f 48 8 → tiles = tileList (c.f 28 1) →
      c.z 29 3 = true → c.z 60 4 = true → tiles.all (bitOf t.tiles.toNat) = true → inPart t false false img (c.f 24 4) = true →
      s1.cmdRead img (c.f 24 4) = (s1, stOK) → s1.kImageOk img (c.f 24 4) = true → popCount 8 (c.f 28 1) = s1.kTiles img →
      (∀ r ∈ s1.kFootprint img, inPart t false false r.1 r.2 = true ∧ s1.retiredIn r.1 r.2 = false) →
      inPart t false false args (s1.kArgs img) = true → s1.anyFenced (s1.kernelCores img tiles) = false →
      (∀ i ∈ tiles, s1.tileKernel i = true → Replies (exec (.kernelLaunch att ring) s) s1 rc stBusy 0 0 0) ∧
      ((∀ i ∈ tiles, s1.tileKernel i = false ∧ s1.tileJob i = false) → s1.cmdRead args (s1.kArgs img) = (s1, stOK) →
        ∃ (v : State) (k : Kernel), Waits (exec (.kernelLaunch att ring) s) v rc (.kernel k.kid) ∧ k.kid = s1.clk.nextId ∧
          v.work.kernels = s1.work.kernels ++ [k] ∧ k.tenant = c.tenant ∧ k.entry = none ∧ k.tiles = tiles ∧
          k.seed = BitVec.ofNat 64 (c.f 32 8) ∧ k.step = BitVec.ofNat 64 (c.f 40 8) ∧
          k.runLimitMs = (if c.f 56 4 = 0 then 60000 else c.f 56 4) ∧ k.startUs = s1.clk.nowUs ∧
          ∀ i ∈ tiles, i < s1.tiles.length → (v.tiles[i]?).map (·.kernel) = some (some k.kid))

/-- 02 R65 to R71; 12 R425: the job commands. JOB_START of a job of one member replies at once with handle and rank, that of
more members waits in STARTING for the step group; a job commanded into the state it is in replies OK without effect, one in
STOPPING replies BUSY, one that has ended BAD_PARAM, but JOB_STOP replies OK. A job with no kernel, collective or parity
write left stops at once; its windows go when the requests in progress against them have completed (log entry 23).
RESULT0 while no step has closed is a free value (log entry 14); the step counted between steps, and states that the
rules do not name, are readings of the model's (log entries 16 and 43). -/
def Obligations.JobCommands : Prop :=
  ∀ (s s1 : State) (att ring h : Nat) (rc : RunCmd) (c : Cmd),
    (∀ t p ids n, s.starts 0x0102 .inline att ring rc c s1 → s1.tenant? c.tenant = some t → n = c.f 48 4 →
      t.plans.find? (fun p => p.handle == c.f 16 2) = some p → c.f 18 1 ≤ 1 → c.z 19 5 = true → c.z 54 10 = true →
      1 ≤ n → n ≤ 32768 → c.f 52 2 < 4096 → s1.jobStartStatus c t p = (s1, stOK) → ids = s1.idsAt (c.f 40 8) n →
      h = lowestFree (s1.work.jobs.map (·.handle)) → (∀ g ∈ s1.cas.groups, g.st ≠ .creating) →
      (∀ x ∈ s1.work.jobs, x.handle ≠ h) ∧
      (n = 1 → ∃ (v : State) (j : Job), Replies (exec (.jobStart att ring) s) v rc stOK
        (h % 2 ^ 16 + ids.idxOf (s1.fab.modId.getD 0) * 2 ^ 16) 0 0 ∧ v.job? h = some j ∧
        j.st = (if c.f 18 1 = 1 then JobState.paused else .running) ∧ j.members = ids ∧ j.tenant = t.id ∧ j.plan = p.handle ∧
        j.jobId = BitVec.ofNat 64 (c.f 32 8) ∧ j.seed = BitVec.ofNat 64 (c.f 24 8) ∧ j.stepGroup = c.f 52 2 ∧
        j.windows = s1.planWindows p.addr ∧ j.lastClosed = none) ∧
      (1 < n → (∀ e ∈ s1.cas.announced, e.1 ≠ c.f 52 2) → (∀ m ∈ ids, s1.alive m = true) →
        ∃ (v : State) (j : Job) (g : Group), Waits (exec (.jobStart att ring) s) v rc (.jobStart h) ∧ v.job? h = some j ∧ j.st = .starting ∧
          j.members = ids ∧ v.cas.groups = s1.cas.groups ++ [g] ∧ g.gid = c.f 52 2 ∧ g.vc = 1 ∧ g.low = true ∧
          g.members = ids ∧ g.step = true ∧ g.st = .creating)) ∧
    ∀ j, h = c.f 16 2 → s1.job? h = some j → j.tenant = c.tenant →
      (s.starts 0x0103 .inline att ring rc c s1 → c.z 18 46 = true →
        (j.st = .running → ∃ v : State, Waits (exec (.jobPause att ring) s) v rc (.jobPause h) ∧ SameBut [.work, .fab] s1 v ∧
          v.job? h = some { j with st := .pausing, pauseAt := some j.pauseStep }) ∧
        (∀ k, j.st = .paused → j.lastClosed = some k → Replies (exec (.jobPause att ring) s) s1 rc stOK (k % 2 ^ 32) 0 0) ∧
        (j.st = .stopping → Replies (exec (.jobPause att ring) s) s1 rc stBusy 0 0 0) ∧
        (j.st = .stopped ∨ j.st = .failed → Replies (exec (.jobPause att ring) s) s1 rc stBadParam 0 0 0)) ∧
      (s.starts 0x0104 .inline att ring rc c s1 → c.z 18 46 = true →
        (j.st = .paused → j.restore = none → ∃ v : State, Replies (exec (.jobResume att ring) s) v rc stOK 0 0 0 ∧
          SameBut [.work, .fab] s1 v ∧ v.job? h = some { j with st := .running, runLeft := none, openUs := s1.clk.nowUs }) ∧
        (j.st = .running → Replies (exec (.jobResume att ring) s) s1 rc stOK 0 0 0) ∧
        (j.st = .stopping → Replies (exec (.jobResume att ring) s) s1 rc stBusy 0 0 0) ∧
        (j.st = .stopped ∨ j.st = .failed → Replies (exec (.jobResume att ring) s) s1 rc stBadParam 0 0 0)) ∧
      (∀ k, s.starts 0x0105 .inline att ring rc c s1 → c.z 18 46 = true → j.lastClosed = some k →
        (j.st = .stopping → Replies (exec (.jobStop att ring) s) s1 rc stBusy 0 0 0) ∧
        (j.st = .stopped ∨ j.st = .failed → Replies (exec (.jobStop att ring) s) s1 rc stOK (k % 2 ^ 32) 0 0) ∧
        (j.live = true → j.st ≠ .stopping → s1.kernelsOf h = [] → (∀ r ∈ s1.cas.colls, s1.collOfJob h r = false) →
          (∀ q ∈ s1.fab.remotes, q.what ≠ .parity h) → ∃ (v : State) (y : Job),
          Replies (exec (.jobStop att ring) s) v rc stOK (k % 2 ^ 32) 0 0 ∧ v.job? h = some y ∧ y.st = .stopped ∧
          (v.fab.granted = [] → y.windows = []) ∧ y.openStep = none ∧ y.lastClosed = some k)) ∧
      (s.starts 0x0106 .inline att ring rc c s1 → c.z 18 2 = true → c.z 24 40 = true → c.f 20 4 ≠ 0 →
        (j.stepped = false → Replies (exec (.stepRun att ring) s) s1 rc stBadParam 0 0 0) ∧
        (j.stepped = true → j.st = .running → Replies (exec (.stepRun att ring) s) s1 rc stBusy 0 0 0) ∧
        (j.stepped = true → j.st = .paused → j.restore = none →
          ∃ v : State, Waits (exec (.stepRun att ring) s) v rc (.stepRun h) ∧ SameBut [.work] s1 v ∧
            v.job? h = some { j with st := .running, runLeft := some (c.f 20 4), openUs := s1.clk.nowUs }))

/-- 02 R64, R66, R68; 12 R468; 16 R557, R576: the steps of a job. A step opens with every entry waiting; the lowest entry not
started starts once those it waits for are done; when all are done the step's work has ended, and a job of one member
without parity closes it at once, while a leaf of a larger job arrives; before COUNT_SUM, where the plan asks for it, the
work does not end. A step that takes too long fails the job.
That the step timeout applies between steps, and that an entry on a busy tile ends BUSY, are readings of the model's
(log entries 45 and 107). -/
def Obligations.StepsOfAJob : Prop :=
  ∀ (s : State) (job : Nat) (j : Job), s.job? job = some j →
    (s.mayOpen j = false → exec (.stepOpen job) s = .next s) ∧
    (s.mayOpen j = true → ∃ u y, exec (.stepOpen job) s = .next u ∧ SameBut [.mem, .media, .work] s u ∧ u.job? job = some y ∧
      y = { j with openStep := some j.nextStep, entries := List.replicate (s.steps (s.imgOf j)) .waiting,
                   summed := !s.skipsNonFinite j, skip := false, stepCount := 0, workEnded := false, arrived := false,
                   sentUp := false, openUs := s.clk.nowUs }) ∧
    (∀ step i, j.openStep = some step → j.entries.findIdx? (· == .waiting) = some i → j.st = .running ∨ j.st = .pausing →
      s.entryReady j i step = true → ∃ (v : State) (y : Job), exec (.stepEntryStart job) s = .next v.settle ∧ v.job? job = some y ∧
        y.entries.length = j.entries.length ∧ ∃ e, y.entries[i]? = some e ∧ e ≠ .waiting) ∧
    (j.summed = false → exec (.stepWorkEnd job) s = .next s) ∧
    (∀ k, j.openStep = some k → j.workEnded = false → j.entriesDone = true → j.summed = true → s.rolloutOf job = none → j.arrived = false →
      j.st = .running ∨ j.st = .pausing → j.guardK = 0 → j.pdataOut = 0 → j.sentUp = false →
      (j.members.length = 1 → j.rank = 0 → ∃ u y, exec (.stepWorkEnd job) s = .next u ∧ u.job? job = some y ∧
        y.lastClosed = some k ∧ y.openStep = none ∧ y.closedSteps = j.closedSteps + 1) ∧
      (j.rank ≠ 0 → treeBelow j.members.length j.rank = [] → ∃ u y, exec (.stepWorkEnd job) s = .next u ∧
        u.job? job = some y ∧ y.openStep = some k ∧ y.workEnded = true ∧ y.arrived = true ∧ y.sentUp = true)) ∧
    (s.clk.nowUs < j.openUs + 1000000 * j.policy.stepTimeoutS → exec (.stepTimeout job) s = .next s) ∧
    (j.policy.stepTimeoutS ≠ 0 → j.openUs + 1000000 * j.policy.stepTimeoutS ≤ s.clk.nowUs → j.st = .running ∨ j.st = .pausing →
      ∃ (v : State) (y : Job),
      exec (.stepTimeout job) s = .next v.settle ∧ v.job? job = some y ∧ y.st = .failed ∧ (v.fab.granted = [] → y.windows = []) ∧ y.openStep = none)

/-- 12 R450, R468, R469; 16 R573, R574: ARRIVE is kept, goes on up the tree once every rank below has arrived, with
the greatest risk; RELEASE goes on down the tree and closes the open step. That between steps the next step counts as
open, and how risk is rounded, are the model's choices (log entries 16 and 18). And 02 R67, R68; 16 R559, R566, R576,
R577: what other members' packets do to a job: pause, resume and stop, guard size, checkpoint; failure. What reaches a
member that has not started or paused yet takes effect when it has (log entry 43). -/
def Obligations.JobPacketsAndStepTree : Prop :=
  (∀ (s s1 : State) (p : Pkt) (j : Job), s1.jobOfPkt p = some j → s1.job? j.handle = some j → p.src ∈ j.members →
    (∀ (v : State) r arr, s.takeRx (fun p => p.ty == 0x29) = some (p, s1) → ctlFieldsOk p 0 24 = true →
      fld p.payload 16 8 < 65536 → fld p.payload 8 8 = j.nextStep → j.live = true → r = j.members.idxOf p.src →
      arr = (j.arrivals.filter fun a => a.1 != r) ++ [(r, fld p.payload 16 8)] →
      v = s1.onJob j.handle (fun x => { x with arrivals := arr }) →
      (j.openStep = none ∨ j.arrived = false → exec .arrive s = .next v) ∧
      (∀ k risk, j.openStep = some k → j.arrived = true → j.sentUp = false → j.rank ≠ 0 →
        (∀ q ∈ treeBelow j.members.length j.rank, ∃ a ∈ arr, a.1 = q) → risk = (arr.map (·.2)).foldl max s1.risk →
        exec .arrive s = .next ((v.send (ctlPkt 0x29 (j.members.getD (treeAbove j.members.length j.rank) 0) j.jobId 0
          (toLE 8 j.jobId.toNat ++ toLE 8 k ++ toLE 8 risk))).1.onJob j.handle fun x => { x with sentUp := true }))) ∧
    (∀ k, s.takeRx (fun p => p.ty == 0x2A) = some (p, s1) → ctlFieldsOk p 0 24 = true → fld p.payload 16 8 < 4 →
      j.openStep = some k → fld p.payload 8 8 = k → j.st = .running ∨ j.st = .pausing →
      j.members.idxOf p.src = treeAbove j.members.length j.rank →
      ∃ u y, exec .releaseStep s = .next u ∧ u.job? j.handle = some y ∧ y.openStep = none ∧ y.lastClosed = some k ∧
        y.closedSteps = j.closedSteps + 1 ∧ y.arrived = false ∧ y.arrivals = [] ∧
        (j.st = .pausing → j.pauseAt = some k → y.st = if j.resumeNext then .running else .paused))) ∧
  (∀ (s s1 : State) (p : Pkt) (j : Job) (arg target : Nat), s1.jobOfPkt p = some j → s1.job? j.handle = some j →
    p.src ∈ j.members →
    (s.takeRx (fun p => p.ty == 0x20) = some (p, s1) → ctlFieldsOk p 16 8 = true → arg = p.a.toNat / 256 →
      target = leNat p.payload →
      (p.a.toNat % 256 = 1 → arg = 0 → j.st = .running → exec .jobControl s =
        .next (s1.onJob j.handle fun x => { x with st := .pausing, pauseAt := some target })) ∧
      (p.a.toNat % 256 = 1 → arg = 0 → j.st = .starting → exec .jobControl s =
        .next (s1.onJob j.handle fun x => { x with pauseAt := some target })) ∧
      (p.a.toNat % 256 = 2 → arg = 0 → j.st = .starting ∨ j.st = .pausing → exec .jobControl s =
        .next (s1.onJob j.handle fun x => { x with resumeNext := true })) ∧
      (p.a.toNat % 256 = 2 → arg = 0 → j.st = .paused → j.restore = none → ∃ u, exec .jobControl s = .next u ∧
        SameBut [.work] s1 u ∧ u.job? j.handle = some { j with st := .running, runLeft := none, openUs := s1.clk.nowUs }) ∧
      (p.a.toNat % 256 = 3 → arg = 0 → j.live = true → j.st ≠ .stopping → s1.kernelsOf j.handle = [] →
        (∀ r ∈ s1.cas.colls, s1.collOfJob j.handle r = false) → (∀ q ∈ s1.fab.remotes, q.what ≠ .parity j.handle) →
        ∃ u y, exec .jobControl s = .next u ∧ u.job? j.handle = some y ∧ y.st = .stopped ∧ (u.fab.granted = [] → y.windows = [])) ∧
      (p.a.toNat % 256 = 4 → s1.guardOk j arg = true → exec .jobControl s =
        .next (s1.onJob j.handle fun x => { x with guardNext := some (arg, target) })) ∧
      (p.a.toNat % 256 = 5 → target ≠ atOnce → exec .jobControl s =
        .next (s1.onJob j.handle fun x => { x with ckptAt := some (arg, target) }))) ∧
    (s.takeRx (fun p => p.ty == 0x2C) = some (p, s1) → ctlFieldsOk p 0 16 = true → zeroAt p.payload 9 7 = true →
      j.live = true → j.st ≠ .stopping → ∃ u y, exec .jobFailed s = .next u ∧ u.job? j.handle = some y ∧ y.st = .failed ∧
        (u.fab.granted = [] → y.windows = []) ∧ y.openStep = none ∧ s1.tel.eventSerial < u.tel.eventSerial))

/-- 16 R559, R565 to R568, R570, R572, R575, R578: guard groups, checkpoints and restore. K = 0 turns the guard off; its result
words are free (log entry 14). And 16 R565, R568, R570: a
checkpoint's copy finishes. The reservoir slot named holds commit record and image, the other slot is unchanged; the
shared tier writes the image, then the record, as posted writes; the last tier ends the checkpoint. The BAD_PARAM
cases of CKPT_TAKE, the policy before a CKPT_POLICY, and the step counted between steps are the model's choices (log
entries 16, 20 and 24). -/
def Obligations.CheckpointCommandsAndCommit : Prop :=
  (∀ (s s1 : State) (att ring h : Nat) (rc : RunCmd) (c : Cmd) (j : Job), s1.job? h = some j → j.tenant = c.tenant → h = c.f 16 2 →
    (∀ k z, s.starts 0x0604 .inline att ring rc c s1 → k = c.f 18 1 → c.z 19 45 = true → k ≠ 1 → k ≤ 16 → z = s1.segBytes j k →
      (j.live = true → j.st ≠ .stopping → j.st ≠ .starting → s1.guardOk j k = false →
        Replies (exec (.guardGroupSet att ring) s) s1 rc stBadParam 0 0 0) ∧
      (k = 0 → j.st = .running → ∃ (v : State) (r0 r1 : Nat), Replies (exec (.guardGroupSet att ring) s) v rc stOK r0 r1 0 ∧
        SameBut [.work, .fab, .clk] s1 v ∧ v.job? h = some { j with guardNext := some (0, j.pauseStep) }) ∧
      (k ≠ 0 → j.st = .running → s1.guardOk j k = true → s1.trains j = true →
        ∃ v : State, Replies (exec (.guardGroupSet att ring) s) v rc stOK z (4 * z) 0 ∧ SameBut [.work, .fab] s1 v ∧
          v.job? h = some { j with guardNext := some (k, j.pauseStep) })) ∧
    (∀ t tiers, s.starts 0x0601 .inline att ring rc c s1 → tiers = c.f 18 1 → c.z 19 45 = true → 1 ≤ tiers → tiers < 4 →
      s1.trains j = true → s1.tenant? c.tenant = some t → t.tiles = 0xFF → j.ckpt = none → j.ckptAt = none →
      (j.st = .running → ∃ v : State, Waits (exec (.ckptTake att ring) s) v rc (.ckptTake h) ∧ SameBut [.work, .fab] s1 v ∧
        v.job? h = some { j with ckptAt := some (tiers, j.pauseStep) }) ∧
      (∀ k, j.st = .paused → j.lastClosed = some k → ∃ (v : State) (y : Job) (d : CkptRun), Waits (exec (.ckptTake att ring) s) v rc (.ckptTake h) ∧
        v.job? h = some y ∧ y.ckpt = some d ∧ d.step = k ∧ d.left = tiers ∧ d.status = stOK)) ∧
    (s.starts 0x0603 .inline att ring rc c s1 → c.f 18 1 ≤ 1 → c.z 22 2 = true → c.z 45 3 = true → c.f 44 1 < 4 →
      j.live = true → j.st ≠ .stopping → c.f 56 8 = 0 ∨ s1.imageBytes (s1.imgOf j) + 4096 ≤ c.f 56 8 →
      ∃ (v : State) (y : Job), Replies (exec (.ckptPolicy att ring) s) v rc stOK 0 0 0 ∧ SameBut [.work] s1 v ∧ v.job? h = some y ∧
        { y with policy := j.policy, intervalUs := j.intervalUs } = j ∧ (y.policy.auto = true ↔ c.f 18 1 = 0) ∧
        (c.f 20 2 = 0 → y.policy.threshold = 16384) ∧ (c.f 24 4 = 0 → y.policy.minS = 60) ∧
        (c.f 28 4 = 0 → y.policy.maxS = 21600) ∧ (c.f 20 2 ≠ 0 → y.policy.threshold = c.f 20 2) ∧
        y.policy.sharedEvery = c.f 19 1 ∧ y.policy.stepTimeoutS = c.f 40 4 ∧ y.policy.sharedAtt = c.f 44 1 ∧
        y.policy.sharedAddr = c.f 48 8 ∧ y.policy.sharedBytes = c.f 56 8) ∧
    (∀ t n old, s.starts 0x0602 (.block 64) att ring rc c s1 → n = c.f 20 4 → c.f 18 1 ≤ 3 → c.f 19 1 ≤ 3 → c.z 56 24 = true →
      j.st = .paused → j.restore = none → j.lastClosed = none → n = j.members.length → s1.tenant? c.tenant = some t →
      inPart t false false (c.f 40 8) (2 * n) = true → s1.cmdRead (c.f 40 8) (2 * n) = (s1, stOK) →
      old = s1.idsAt (c.f 40 8) n → s1.restoreStatus j n old = stOK →
      ∃ (v : State) (y : Job) (r : RestoreRun), exec (.ckptRestore att ring) s = .next (v.ends rc (.wait (.ckptRestore h))).settle ∧
        v.job? h = some y ∧ y.restore = some r ∧ r.source = c.f 18 1 ∧ r.oldJob = BitVec.ofNat 64 (c.f 24 8) ∧
        r.oldMembers = old ∧ r.done = [] ∧ (j.rank, s1.ownHoldings j r) ∈ r.holdings) ∧
    ∀ m, m = (if j.members.length * (j.policy.fleetFailures + j.losses) = 0
        then 3600000000 * j.policy.fleetHours / j.members.length
        else (3600000000 * j.policy.fleetHours + j.members.length * (s1.clk.nowUs - j.startUs)) /
          (j.members.length * (j.policy.fleetFailures + j.losses))) →
      j.rank = 0 → 2 * j.costUs.getD 10000000 * m < 2 ^ 512 → ∃ u y, exec (.ckptIntervalRecompute h) s1 = .next u ∧
        SameBut [.work] s1 u ∧ u.job? h = some { j with intervalUs := y } ∧ y * y ≤ 2 * j.costUs.getD 10000000 * m ∧
        2 * j.costUs.getD 10000000 * m < (y + 1) * (y + 1)) ∧
  (∀ (s : State) (job tier : Nat) (j : Job) (c : CkptRun) (image : Bytes) (ok : Bool), s.job? job = some j → j.ckpt = some c →
    image = s.bytesAt (s.bufAt j (c.step % 2)) (s.imageBytes (s.imgOf j)) → s.mem.lineErr = [] → s.mem.wordErr = [] →
    s.mem.deadPages = [] → j.ckptAt = none → c.left = 2 ^ tier →
    (tier = 0 → s.resv.resHold = true → exec (.ckptCommit job tier ok) s = .next s) ∧
    (tier = 0 → s.resv.resHold = false → s.resv.sparePct ≠ 0 → c.slot ≤ 1 →
      ∃ u y, exec (.ckptCommit job tier ok) s = .next u ∧ u.job? job = some y ∧ y.ckpt = none ∧
        u.resv.slotSeq = s.resv.slotSeq + 1 ∧ (∃ sl : CkptSlot, (if c.slot = 0 then u.resv.slot0 else u.resv.slot1) = sl ∧
          sl.commit = s.commitBytes j c.step (s.resv.slotSeq + 1) image ∧ sl.commit.take 4 = toLE 4 0x434B5031 ∧
          sl.image = image ∧ sl.st = 2) ∧
        (if c.slot = 0 then u.resv.slot1 = s.resv.slot1 else u.resv.slot0 = s.resv.slot0) ∧
        s.tel.eventSerial < u.tel.eventSerial) ∧
    (tier = 1 → j.policy.sharedBytes ≠ 0 → s.attServes j.policy.sharedAtt = true → ok = true →
      ∃ u y a rec_, exec (.ckptCommit job tier ok) s = .next u ∧ u.job? job = some y ∧ y.ckpt = none ∧
        a = j.policy.sharedAddr + j.policy.sharedBytes * slotToWrite (s.sharedSlot j.policy.sharedAtt j.policy.sharedAddr)
          (s.sharedSlot j.policy.sharedAtt (j.policy.sharedAddr + j.policy.sharedBytes)) ∧
        rec_ = s.commitBytes j c.step (s.resv.slotSeq + 1) image ∧ u.resv.slot0 = s.resv.slot0 ∧ u.resv.slot1 = s.resv.slot1 ∧
        s.host.pcieWrites ++ [(j.policy.sharedAtt, a + 4096, image), (j.policy.sharedAtt, a, rec_)] <+: u.host.pcieWrites))

/-! ### Media, KV caches and the input pipeline (13 to 15) -/

/-- 13 R480 to R483, R485 to R487, R505, R507: the stream commands, once their checks pass. An area that is not HBM is
TENANT_DENIED (log entry 89). A stream opens with every buffer free under a handle that no stream has; the entries of a feed take
effect in order, and a feed with a SOURCE or END waits for it; a close drains or stops the stream and
the command waits; a class changes at once.
That a handle is the lowest free one is the model's choice (log entry 35); the level tables are presumed (log entry
26). -/
def Obligations.MediaStreams : Prop :=
  ∀ (s s1 : State) (att ring : Nat) (rc : RunCmd) (c : Cmd),
    (∀ b enc t, s.starts 0x0401 (.block 128) att ring rc c s1 → b = c.par → enc = (fld b 0 1 == 1) →
      (openRanges b = false → Replies (exec (.streamOpen att ring) s) s1 rc stBadParam 0 0 0) ∧
      (openRanges b = true → s1.blocked 8 0 0 = false → openHbm b = false →
        Replies (exec (.streamOpen att ring) s) s1 rc stDenied 0 0 0) ∧
      (openRanges b = true → s1.blocked 8 0 0 = false → openHbm b = true → s1.tenant? c.tenant = some t →
        (∀ r ∈ openAreas b, inPart t false true r.1 r.2 = true) → s1.contexts enc < (if enc then 64 else 512) →
        s1.buffersUsed + fld b 8 2 ≤ 1024 → fld b 2 1 ≠ 3 → s1.domOn 3 = true →
        openConsistent b = true → ∃ (v : State) (x : Stream),
          Replies (exec (.streamOpen att ring) s) v rc stOK x.handle (if enc then auMax b else 0) (minStride b) ∧
          SameBut [.media] s1 v ∧ v.media.streams = s1.media.streams ++ [x] ∧ (∀ y ∈ s1.media.streams, y.handle ≠ x.handle) ∧
          x.tenant = c.tenant ∧ x.cfg = b ∧ x.encode = enc ∧ x.cls = fld b 2 1 ∧ x.st = .opened ∧ x.records = 0 ∧
          x.marks.length = fld b 8 2 ∧ ∀ m ∈ x.marks, m.free = true)) ∧
    ∀ h x, h = c.f 16 2 → s1.stream? h = some x → x.tenant = c.tenant → x.feeds = none →
      (∀ t n l o y, s.starts 0x0403 .inline att ring rc c s1 → n = c.f 32 4 → c.z 18 6 = true → c.z 36 28 = true → 1 ≤ n →
        n ≤ 4096 → x.st = .opened → s1.blocked 8 0 0 = false → s1.tenant? c.tenant = some t →
        inPart t false false (c.f 24 8) (32 * n) = true → s1.cmdRead (c.f 24 8) (32 * n) = (s1, stOK) →
        l = ((List.range n).map fun i => s1.bytesAt (c.f 24 8 + 32 * i) 32) → o = s1.media.feedOrder →
        (l.all x.entryOk = false → exec (.streamFeed att ring) s = .next ((s1.finish rc stBadParam 0 0 0).readAll).mediaOn) ∧
        (l.all x.entryOk = true → (feedBufs l).Nodup →
          (∀ e ∈ l, fld e 0 1 = 1 → inPart t false false (fld e 8 8) (fld e 4 4) = true) →
          y = l.zipIdx.foldl (fun z e => Stream.feed z c.uid (o + e.2) s1.clk.nowUs e.1) x →
          ∃ w : State, SameBut [.media] s1 w ∧ w.stream? h = some y ∧ w.media.feedOrder = o + n ∧
            ((∀ e ∈ l, fld e 0 1 ≠ 1 ∧ fld e 0 1 ≠ 5) →
              exec (.streamFeed att ring) s = .next ((w.finish rc stOK 0 0 0).readAll).mediaOn) ∧
            (∀ e ∈ l, fld e 0 1 = 1 ∨ fld e 0 1 = 5 →
              exec (.streamFeed att ring) s = .next ((w.ends rc (.wait (.streamFeed h))).readAll).mediaOn))) ∧
      (s.starts 0x0402 .inline att ring rc c s1 → c.z 19 45 = true →
        (c.f 18 1 = 0 → x.st = .opened → ∃ (w : State) (y : Stream), SameBut [.media] s1 w ∧ w.stream? h = some y ∧
          y.st = .draining ∧ { y with st := x.st, queue := x.queue } = x ∧ (x.encode = false → y.queue = x.queue) ∧
          exec (.streamClose att ring) s = .next (w.ends rc (.wait (.streamClose h 0))).mediaOn) ∧
        (c.f 18 1 = 1 → x.st = .opened ∨ x.st = .draining → ∃ (w : State) (y : Stream), w.stream? h = some y ∧
          y.st = .closing ∧ y.queue = [] ∧ y.unread = [] ∧ (∀ r ∈ w.host.running, r.wait ≠ .streamClose h 0) ∧
          exec (.streamClose att ring) s = .next (w.ends rc (.wait (.streamClose h 1))).mediaOn) ∧
        (c.f 18 1 ≤ 1 → x.st = .closing ∨ x.st = .held →
          exec (.streamClose att ring) s = .next (s1.finish rc stBusy 0 0 0).mediaOn)) ∧
      (s.starts 0x0404 .inline att ring rc c s1 → c.z 19 45 = true → c.f 18 1 ≤ 3 →
        (x.st ≠ .opened → Replies (exec (.streamPriority att ring) s) s1 rc stBusy 0 0 0) ∧
        (x.st = .opened → c.f 18 1 = 3 → s1.class3Ok x.encode h (x.f 64 4) = false →
          Replies (exec (.streamPriority att ring) s) s1 rc stNoResource 0 0 0) ∧
        (x.st = .opened → c.f 18 1 ≠ 3 ∨ s1.class3Ok x.encode h (x.f 64 4) = true →
          ∃ v : State, Replies (exec (.streamPriority att ring) s) v rc stOK 0 0 0 ∧ SameBut [.media] s1 v ∧
            v.stream? h = some { x with cls := c.f 18 1 }))

/-- 13 R473, R479, R480, R484, R490 to R492, R498, R504: a free pipe takes the ready picture of the highest class, of these the one fed
first, for decode one within the limits, and after a break one at a random access point; a coded picture becomes the
reference, with one record more; a decoded one waits for its output, and one that is broken, or lies in bytes that could not
be read, gives a record that counts the pictures discarded, and no output, and the stream looks for a random access point.
What a coded picture holds is outside the spec: an uninterpreted function (log entry 25). -/
def Obligations.PicturesRun : Prop :=
  ∀ (s s0 : State) (enc : Bool) (pipes : List (Nat × PipeRun)),
    (s0 = s.readAll.mediaOn → pipes = (if enc then s0.media.encPipes else s0.media.decPipes) →
      (s0.bestReady enc = none → exec (.pictureStart enc) s = .next s0) ∧
      ∀ i r, i < (if enc then 4 else 16) → (∀ p ∈ pipes, p.1 ≠ i) → (∀ j, j < i → ∃ p ∈ pipes, p.1 = j) →
        s0.bestReady enc = some r →
        (∀ x ∈ s0.media.streams, x.encode = enc → ∀ q, s0.readyOf x = some q →
          q.cls < r.cls ∨ (q.cls = r.cls ∧ r.order ≤ q.order)) ∧
        (∀ x ∈ s0.media.streams, enc = false → x.encode = false → s0.readyOf x = some r →
          ∃ p, x.next = some p ∧ x.headerOk p.header = true ∧ (x.sync ≠ .run → randomAccess (x.f 1 1) p.access = true)) ∧
        ∃ u, exec (.pictureStart enc) s = .next u ∧ SameBut [.media] s0 u ∧
          (∀ x, s0.stream? r.handle = some x → u.stream? r.handle = some (x.take r.buf)) ∧
          (if enc then u.media.encPipes else u.media.decPipes) = pipes ++ [(i, r.run)]) ∧
    ∀ pipe r x b, s.mem.lineErr = [] → s.mem.wordErr = [] → s.mem.deadPages = [] → r.buf = some b →
      pipes = (if enc then s.media.encPipes else s.media.decPipes) → pipes.find? (fun p => p.1 == pipe) = some (pipe, r) →
      s.stream? r.handle = some x →
      (enc = true → r.got = none → (∃ off, x.place = some off) → ∃ (v : State) (y : Stream),
        exec (.pictureComplete enc pipe) s = .next (v.readAll).mediaOn ∧ v.stream? r.handle = some y ∧
        (∀ p ∈ v.media.encPipes, p.1 ≠ pipe) ∧ y.outq.length = x.outq.length + 1 ∧ y.refBuf = some b ∧ y.first = false ∧
        y.order = x.order + 1 ∧ y.units.length = x.units.length + 1 ∧ ∀ i m, y.marks[i]? = some m → (m.ref = true ↔ i = b)) ∧
      (∀ p m, enc = false → r.got = some p → p.refs = [] → x.marks[b]? = some m →
        (x.lost p = false → p.broken = false → p.outputs = [] → p.keep.contains m.pic = true → ∃ (v : State) (y : Stream),
          exec (.pictureComplete enc pipe) s = .next (v.readAll).mediaOn ∧ v.stream? r.handle = some y ∧ y.outq = x.outq ∧
          y.held = (x.held ++ [(m.pic, r.pic.tag, p.ptype, p.header.width, p.header.height, r.pic.feedUs)]).filter
            (fun e => p.keep.contains e.1) ∧ y.store = p.keep ∧ y.marks[b]? = some { m with work := false, ref := true }) ∧
        (x.lost p = true ∨ p.broken = true → ∃ (v : State) (y : Stream),
          exec (.pictureComplete enc pipe) s = .next (v.readAll).mediaOn ∧ SameBut [.media] s v ∧ v.stream? r.handle = some y ∧
          y.held = x.held ∧ y.sync = .seek ∧ y.skipped = 0 ∧ y.marks[b]? = some Marks.clear ∧ y.outq.length = x.outq.length + 1 ∧
          (y.outq.getLast?).map (fun o => (fld o 0 1, fld o 4 2, fld o 44 2)) =
            some (if x.lost p then stUncorrectable else stCorrupt, 0xFFFF, min x.skipped 0xFFFF)))

/-- 15 R534 to R537, R539 to R542, R548, R549, R552: KV caches and rollouts. A created cache has its header and zeros; an
append moves LENGTH on; a release frees one sequence, cuts it, or ends the cache; a rollout locks its sequences and waits;
its pictures go to their streams in order, tagged TAG + k. The tables lie in memory that is on and has been initialised.
KV_RELEASE of a free sequence, a second rollout, and a picture whose stream is closed are readings of the model's (log
entries 74 and 87). -/
def Obligations.CachesAndRollouts : Prop :=
  ∀ (s s1 : State) (att ring : Nat) (rc : RunCmd) (c : Cmd) (t : Tenant), s1.tenant? c.tenant = some t →
    (∀ k : Kv, s.starts 0x0A01 .inline att ring rc c s1 →
      k = { handle := lowestFree (s1.media.kvs.map (·.handle)), tenant := c.tenant, layers := c.f 16 2, heads := c.f 18 1,
            group := c.f 19 1, dim := c.f 20 2, maxSeqs := c.f 24 2, table := c.f 32 8, pool := c.f 40 8, frames := c.f 48 4 } →
      c.z 23 1 = true → c.z 26 6 = true → c.z 52 12 = true → 1 ≤ k.layers → k.layers ≤ 256 → 1 ≤ k.heads → k.heads ≤ 64 →
      1 ≤ k.group → k.group ≤ 16 → k.dim ∈ [64, 128, 256] → c.f 22 1 = 3 → 1 ≤ k.maxSeqs → k.maxSeqs ≤ 4096 →
      k.table % 4096 = 0 → k.pool % 4096 = 0 → 1 ≤ k.frames → k.frames < 2 ^ 24 →
      (inPart t false true k.table k.tableBytes = false → Replies (exec (.kvCreate att ring) s) s1 rc stDenied 0 0 0) ∧
      (inPart t false true k.table k.tableBytes = true → inPart t false true k.pool (k.frames * k.frameBytes) = true →
        (s1.media.kvs.filter fun x => x.tenant == c.tenant).length < 16 →
        overlaps k.table k.tableBytes k.pool (k.frames * k.frameBytes) = false → s1.mem.lineErr = [] →
        k.table + k.tableBytes ≤ hbmEnd → k.pool + k.frames * k.frameBytes ≤ hbmEnd →
        hbmAny s1.groupOff k.table k.tableBytes = false → hbmAny s1.groupInit k.table k.tableBytes = false →
        ∃ v : State, Replies (exec (.kvCreate att ring) s) v rc stOK k.handle k.frameBytes k.tableBytes ∧
          v.media.kvs = s1.media.kvs ++ [k] ∧ (∀ x ∈ s1.media.kvs, x.handle ≠ k.handle) ∧ v.bytesAt k.table 4096 = k.header ∧
          (∀ a, k.table + 4096 ≤ a → a < k.table + k.tableBytes → v.byteAt a = 0) ∧ KeepsOutside k.table k.tableBytes s1 v)) ∧
    (∀ k seq, s1.kv? (c.f 16 2) = some k → k.tenant = c.tenant → s1.mem.lineErr = [] → k.table + k.tableBytes ≤ hbmEnd →
      hbmAny s1.groupOff k.table k.tableBytes = false → hbmAny s1.groupInit k.table k.tableBytes = false → seq = c.f 18 2 →
      (∀ n q len, s.starts 0x0A02 .inline att ring rc c s1 → n = c.f 20 4 → c.z 32 32 = true → n ≤ 1048576 →
        inPart t false false (c.f 24 8) (k.layers * k.heads * 2 * n * k.dim * 2) = true →
        (seq = 0xFFFF ∧ s1.kvFreeSeq k = some q ∧ len = 0) ∨
          (seq < k.maxSeqs ∧ seq ≠ 0xFFFF ∧ s1.kvState k seq = 1 ∧ q = seq ∧ len = s1.kvLen k q) →
        q < k.maxSeqs → len + n ≤ 1048576 →
        ceilDiv (len + n) 256 - (if seq = 0xFFFF then 0 else s1.kvPages k q) ≤ k.frames - s1.kvUsed k →
        (n ≠ 0 → s1.cmdRead (c.f 24 8) (k.layers * k.heads * 2 * n * k.dim * 2) = (s1, stOK)) →
        ∃ v : State, Replies (exec (.kvAppend att ring) s) v rc stOK q (len + n) (v.kvUsed k) ∧ v.kvLen k q = len + n ∧
          v.media = s1.media ∧ (n = 0 → seq = 0xFFFF → v.kvState k q = 1 ∧ KeepsOutside (k.recAt q) 8 s1 v)) ∧
      (s.starts 0x0A03 .inline att ring rc c s1 → c.z 21 3 = true → c.z 28 36 = true →
        (c.f 20 1 = 0 → seq = 0xFFFF → (∀ q, q < k.maxSeqs → s1.kvState k q ≠ 2) →
          ∃ v : State, Replies (exec (.kvRelease att ring) s) v rc stOK 0 0 0 ∧
            v.media.kvs = s1.media.kvs.filter fun x => x.handle != k.handle) ∧
        (seq ≠ 0xFFFF → seq < k.maxSeqs → s1.kvState k seq = 2 → c.f 20 1 = 0 →
          Replies (exec (.kvRelease att ring) s) s1 rc stBusy 0 0 0) ∧
        (c.f 20 1 = 0 → seq ≠ 0xFFFF → seq < k.maxSeqs → s1.kvState k seq = 1 →
          ∃ v : State, Replies (exec (.kvRelease att ring) s) v rc stOK 0 0 0 ∧ v.bytesAt (k.recAt seq) 64 = zeros 64) ∧
        (c.f 20 1 = 1 → seq ≠ 0xFFFF → seq < k.maxSeqs → s1.kvState k seq = 1 → c.f 24 4 ≤ s1.kvLen k seq →
          ∃ v : State, Replies (exec (.kvRelease att ring) s) v rc stOK 0 0 0 ∧ v.kvLen k seq = c.f 24 4))) ∧
    (∀ k j n l, s.starts 0x0A04 .inline att ring rc c s1 → s1.kv? (c.f 18 2) = some k → k.tenant = c.tenant → n = c.f 20 4 →
      c.z 32 32 = true → 1 ≤ n → n ≤ 256 → s1.job? (c.f 16 2) = some j → j.tenant = c.tenant → j.st = .running →
      s1.trains j = false → inPart t false false (c.f 24 8) (32 * n) = true → s1.cmdRead (c.f 24 8) (32 * n) = (s1, stOK) →
      s1.mem.lineErr = [] → k.table + k.tableBytes ≤ hbmEnd → hbmAny s1.groupOff k.table k.tableBytes = false →
      hbmAny s1.groupInit k.table k.tableBytes = false →
      l = ((List.range n).map fun i => s1.bytesAt (c.f 24 8 + 32 * i) 32) →
      (∀ st, s1.rollStatus c k j l = st → st ≠ stOK → Replies (exec (.rolloutStep att ring) s) s1 rc st 0 0 0) ∧
      (s1.rollStatus c k j l = stOK → ∃ (v : State) (r : Rollout), Waits (exec (.rolloutStep att ring) s) v rc (.rollout j.handle) ∧
        v.media.rollouts = s1.media.rollouts ++ [r] ∧ r.uid = c.uid ∧ r.job = j.handle ∧ r.cache = k.handle ∧
        r.entries = l.map (rollEntry s1 k) ∧ v.work = s1.work)) ∧
    ∀ uid i r e x j b, s.media.rollouts.find? (fun r => r.uid == uid) = some r → r.entries[i]? = some e → e.queued < e.pictures →
      s.job? r.job = some j → j.openStep ≠ none → j.live = true → s.stream? e.stream = some x → x.st = .opened →
      b = x.rollout % x.f 8 2 →
      ((x.marks[b]?).any Marks.free = false → exec (.rolloutPicture uid i) s = .next s) ∧
      ((x.marks[b]?).any Marks.free = true → ∃ u y q, exec (.rolloutPicture uid i) s = .next u ∧ SameBut [.media] s u ∧
        u.stream? e.stream = some y ∧ y.queue = x.queue ++ [q] ∧ q.buf = b ∧ q.tag = e.tag + BitVec.ofNat 64 e.queued ∧
        q.last = false ∧ y.rollout = x.rollout + 1 ∧ u.media.rollouts.find? (fun r => r.uid == uid) =
          some { r with entries := modAt r.entries i fun e => { e with queued := e.queued + 1 } })

/-- 14 R512, R525 to R528: the pipeline commands. A configured pipeline is stopped at epoch 0, batch 0; it starts behind its
last complete batch; stopped, it keeps its complete batches, once the pictures of its own decode streams have landed; a seek sets the position and reports a saved one that differs.
The check of the manifest's place is a reading of the model's (log entry 88). -/
def Obligations.PipelineCommands : Prop :=
  ∀ (s s1 : State) (att ring : Nat) (rc : RunCmd) (c : Cmd),
    (∀ t b, s.starts 0x0501 (.block 128) att ring rc c s1 → b = c.par → s1.tenant? c.tenant = some t →
      (pipeCfgOk b = false → Replies (exec (.pipeConfigure att ring) s) s1 rc stBadParam 0 0 0) ∧
      (pipeCfgOk b = true → pipeHbm b = false → Replies (exec (.pipeConfigure att ring) s) s1 rc stDenied 0 0 0) ∧
      (pipeCfgOk b = true → pipeHbm b = true → inPart t true false (pipeManifest b).1 (pipeManifest b).2 = true →
        (∀ r ∈ pipeAreas b, inPart t false true r.1 r.2 = true) →
        (s1.pipeState c.tenant = .running → Replies (exec (.pipeConfigure att ring) s) s1 rc stBusy 0 0 0) ∧
        (s1.pipeState c.tenant ≠ .running → s1.pipeState c.tenant ≠ .stopping → ∃ (v : State) (p : Pipeline),
          Replies (exec (.pipeConfigure att ring) s) v rc stOK 0 0 0 ∧ v.pipe? c.tenant = some p ∧ p.st = .stopped ∧ p.cfg = b ∧
          p.seqNo = 0 ∧ p.readNo = 0 ∧ p.buffers = [] ∧ p.samples = [] ∧ v.media.streams = s1.media.streams))) ∧
    ∀ p, s1.pipe? c.tenant = some p → p.st ≠ .unconfigured →
      (s.starts 0x0502 .inline att ring rc c s1 → c.z 16 48 = true →
        (p.st ≠ .stopped → Replies (exec (.pipeStart att ring) s) s1 rc stBusy 0 0 0) ∧
        (∀ j, p.st = .stopped → s1.job? (p.f 0 2) = some j → j.tenant = c.tenant →
          j.st = .starting ∨ j.st = .running ∨ j.st = .paused → s1.contexts false ≤ 256 → ∃ (v : State) (n : Nat),
            Replies (exec (.pipeStart att ring) s) v rc stOK 0 0 0 ∧ SameBut [.media] s1 v ∧
            v.pipe? c.tenant = some { p with st := .running, seqNo := n } ∧ p.readNo ≤ n ∧ ∀ b ∈ p.buffers, b.n < n)) ∧
      (s.starts 0x0503 .inline att ring rc c s1 → c.z 16 48 = true →
        (p.st ≠ .running → Replies (exec (.pipeStop att ring) s) s1 rc stBusy 0 0 0) ∧
        (p.st = .running → (∀ x ∈ s1.media.streams, x.tenant = c.tenant → x.feeds = none) →
          ∃ v : State, Replies (exec (.pipeStop att ring) s) v rc stOK 0 0 0 ∧ v.pipe? c.tenant =
            some { p with st := .stopped, samples := [], buffers := p.buffers.filter fun b => b.st == 2 }) ∧
        (∀ x ∈ s1.media.streams, p.st = .running → x.tenant = c.tenant → x.feeds ≠ none → s1.inPipe x.handle = true →
          ∃ v : State, Waits (exec (.pipeStop att ring) s) v rc (.pipeStop c.tenant) ∧ v.pipe? c.tenant =
            some { p with st := .stopping, samples := [], buffers := p.buffers.filter fun b => b.st == 2 })) ∧
      (∀ e b d st, s.starts 0x0504 .inline att ring rc c s1 → e = c.f 16 4 → b = c.f 24 8 → e < 2 ^ 24 → b < p.batches →
        c.f 32 8 < 2 ^ 40 → c.z 40 24 = true → d = b * (p.f 8 4 * p.f 4 4) + p.f 12 4 * p.f 4 4 → p.st = .stopped →
        s1.mem.lineErr = [] →
        st = (if c.f 20 4 = e ∧ c.f 32 8 = d then stOK else stRngResync) →
        ∃ v : State, Replies (exec (.pipeSeek att ring) s) v rc st (d % 2 ^ 40) (c.f 32 8) (e + c.f 20 4 * 2 ^ 32) ∧
          v.pipe? c.tenant = some { p with seqNo := e * p.batches + b, readNo := e * p.batches + b, buffers := [], samples := [] } ∧
          (st = stOK → v.tel = s1.tel) ∧ (st ≠ stOK → v.tel.events.head?.map (·.code) = some 0x0042))

/-- 14 R509, R510, R513 to R516, R518 to R521, R530 to R532: the stages of a running pipeline. The next batch begins once its
buffer is free; requests go out by batch and slot; each stage moves the first sample that stands before it on, when the next
has room; DECODE opens a decode stream for a sample and takes what that stream has shown: a record that is not OK, another
size or another number of frames rejects it; a rejected sample goes to the assemble stage with its cause; the last slot
completes its batch.
What the bytes decode to is an uninterpreted function, and a sample's own stream the model's choice (log entry 27); how much work space a sample takes, and that
batches complete in batch order, are the model's choices (log entries 28 and 29). -/
def Obligations.PipelineStages : Prop :=
  ∀ (s : State) (t : Nat) (p : Pipeline), s.pipe? t = some p → p.st = .running →
    (∀ n, n = p.seqNo → (∀ b ∈ p.buffers, b.n % (p.f 2 1 + 1) ≠ n % (p.f 2 1 + 1)) → n / p.batches < 2 ^ 24 →
      ∃ v : State, exec (.batchFillStart t) s = .next (v.completeBatches t 9) ∧ v.pipe? t = some { p with
        buffers := p.buffers ++ [{ n := n, epoch := n / p.batches, batch := n % p.batches, st := 1, issued := 0, written := [] }],
        seqNo := n + 1 }) ∧
    (∀ b, b ∈ p.buffers → b.n % (p.f 2 1 + 1) = p.seqNo % (p.f 2 1 + 1) → exec (.batchFillStart t) s = .next s) ∧
    (∀ x pcie, p.front 2 = none → p.front 0 = none → s.nextRequest p = some x → p.inStage 0 < 64 → p.count 1 < 32 →
      ∃ (v : State) (y : Pipeline), exec (.fetchSample t pcie) s = .next (v.fetchHeader t p x pcie) ∧ SameBut [.media] s v ∧
        v.pipe? t = some y ∧ y.samples = p.samples ++ [x] ∧ x.at_ = 0 ∧
        (∃ b ∈ p.buffers, b.n = x.n ∧ b.st = 1 ∧ b.issued = x.slot ∧
          x.sample = epochPerm (s.pipeSeed p) b.epoch (p.f 24 8) (p.slotPos b.batch x.slot) ∧
          ∀ b' ∈ p.buffers, b'.st = 1 → b'.issued < p.live b'.batch → b.n ≤ b'.n)) ∧
    (∀ x pcie b, p.front 2 = some x → s.fetch x.entry 0 (fld x.entry 16 8) pcie = (s, .data b) →
      ∃ u, exec (.fetchSample t pcie) s = .next u ∧ SameBut [.media] s u ∧ u.pipe? t = some (p.passes x 0 (fun y => { y with at_ := 3, bytes := b, failed := false }))) ∧
    (∀ x pcie, p.front 2 = some x → s.fetch x.entry 0 (fld x.entry 16 8) pcie = (s, .fail) → x.stalled = false →
      ∃ u, exec (.fetchSample t pcie) s = .next u ∧ SameBut [.media, .tel] s u ∧
        u.tel.events.head?.map (·.code) = some 0x0040 ∧ u.pipe? t = some { p with
          samples := modFirst (fun y => y.n == x.n && y.slot == x.slot) (fun y => { y with failed := true, stalled := true }) p.samples }) ∧
    (∀ x pcie b, p.samples.find? (·.failed) = some x → x.at_ = 2 → fld x.entry 0 1 ≠ 1 → pcie = some b →
      b.length = fld x.entry 16 8 → s.attServes (fld x.entry 2 1) = true →
      ∃ u, exec (.fetchRetry t pcie) s = .next u ∧ SameBut [.media] s u ∧ u.pipe? t = some 
        ({ p with retries := p.retries + 1 }.passes x 0 (fun y => { y with at_ := 3, bytes := b, failed := false }))) ∧
    (∀ x, p.front 1 = some x →
      (∀ r, s.admission t p x = some r → p.count 5 < 16 → ∃ u, exec (.admission t) s = .next u ∧ SameBut [.media] s u ∧
        u.pipe? t = some (p.passes x 1 (fun y => { y with at_ := 5, status := r.1, cause := r.2, bytes := [] }))) ∧
      (∀ h, s.admission t p x = none → Config.sampleHeader (fld x.entry 1 1) x.bytes = some h → p.count 2 + p.count 3 < 256 →
        p.workUsed + fld x.entry 16 8 + frameSize p.cfg ≤ p.f 56 8 → ∃ u, exec (.admission t) s = .next u ∧ SameBut [.media] s u ∧
        u.pipe? t = some (p.passes x 1 (fun y => y.admitted h))) ∧
      (s.admission t p x = none → 256 ≤ p.count 2 + p.count 3 → exec (.admission t) s = .next s)) ∧
    (∀ x y, s.decodedSample p = some (x, y, false) → p.count 5 < 16 → ∃ v : State,
      exec (.decodeSample t) s = .next (v.endFeeds t fun w => w == (x.n, x.slot)) ∧ SameBut [.media] s v ∧
      v.pipe? t = some (p.passes x 2 (fun y => { y with at_ := 5, status := stCorrupt, cause := 5, bytes := [] }))) ∧
    (∀ x y, s.decodedSample p = some (x, y, true) → p.count 4 < 32 → ∃ v : State,
      exec (.decodeSample t) s = .next (v.endFeeds t fun w => w == (x.n, x.slot)) ∧ SameBut [.media] s v ∧
      v.pipe? t = some (p.passes x 2 (fun z => z.decoded y))) ∧
    (∀ x, s.decodedSample p = none → p.samples.find? (fun x => x.at_ == 3 && !x.failed && (s.sampleStream t x).isNone) = some x →
      s.buffersUsed + max 2 (x.store + 1) ≤ 1024 → x.store < 65535 → s.blocked 8 0 0 = false → s.domOn 3 = true →
      ∃ (w : State) (y : Stream), exec (.decodeSample t) s = .next w.mediaOn ∧ SameBut [.media] s w ∧
        w.media.streams = s.media.streams ++ [y] ∧ y.feeds = some (x.n, x.slot) ∧ y.tenant = t ∧ y.encode = false ∧ y.st = .opened) ∧
    (∀ (x : Sample) (y : Stream) n, n = x.nframes → n ≠ 0 → p.span ≤ n →
      ((∃ r ∈ y.picsShown.take (s.firstFrame p x + p.span), r.status ≠ stOK) → s.decodeOutcome p x y = some false) ∧
      ((∃ r ∈ y.picsShown, r.status = stOK ∧ (r.w ≠ x.w ∨ r.h ≠ x.h)) → s.decodeOutcome p x y = some false) ∧
      ((∃ r ∈ y.shown, r.last = true) → y.frameCount ≠ n → s.decodeOutcome p x y = some false) ∧
      ((∃ r ∈ y.shown, r.last = true) → (∀ r ∈ y.picsShown, r.status = stOK ∧ r.w = x.w ∧ r.h = x.h) → y.picsShown.length = n →
        y.frameCount = n → s.decodeOutcome p x y = some true)) ∧
    (∀ x, p.front 4 = some x →
      (16 ≤ p.count 5 → exec (.augment t) s = .next s) ∧
      (p.count 5 < 16 → ∃ u f, exec (.augment t) s = .next u ∧ SameBut [.media] s u ∧
        f = (bitOf (p.f 3 1) 0 && bitOf (s.augDraw p x 1).1 0) ∧ u.pipe? t = some (p.passes x 3 (fun y => { y with at_ := 5, clip := s.clipOf p x f, flip := f, frames := [] })))) ∧
    (∀ x, p.front 5 = some x → s.mem.lineErr = [] → (∀ g, s.groupInit g = false) → p.entryAt x.n x.slot + 16 ≤ hbmEnd → ∃ (v : State) (y : Pipeline),
      exec (.assemble t) s = .next (v.completeBatches t 9) ∧ v.pipe? t = some y ∧ y.assembled = p.assembled + 1 ∧
      y.rejected = (if x.status = stOK then p.rejected else p.rejected + 1) ∧
      y.samples = p.samples.filter (fun z => !(z.n == x.n && z.slot == x.slot)) ∧
      v.bytesAt (p.entryAt x.n x.slot) 16 = toLE 8 x.sample ++ toLE 4 (if x.status = stOK then 0x3F800000 else 0) ++
        toLE 1 x.status ++ toLE 1 x.cause ++ toLE 1 (if x.flip then 1 else 0) ++ toLE 1 0 ∧
      (x.status = stOK → v.tel = s.tel) ∧ (x.status ≠ stOK → v.tel.events.head?.map (·.code) = some 0x0041)) ∧
    (∀ b, p.buffers = [b] → b.st ≠ 2 → p.live b.batch ≤ b.written.length → ∃ y : Pipeline,
      (s.completeBatches t 9).pipe? t = some y ∧ y.buffers = [{ b with st := 2 }] ∧
      y.logSerial = p.logSerial + b.rejects.length) ∧
    ∃ u, exec (.pipeStatusRewrite t) s = .next u ∧ u.pipe? t = some { p with recSeq := p.recSeq + 1 } ∧
      (s.mem.lineErr = [] → (∀ g, s.groupInit g = false) → p.f 64 8 + 256 ≤ hbmEnd → u.bytesAt (p.f 64 8) p.record.length = p.record)

/-- 14 R517: the order of an epoch is a permutation of its samples: every position names a sample, and no two the same. -/
def Obligations.EpochOrderIsAPermutation : Prop :=
  ∀ seed e n p q : Nat, n ≤ 2 ^ 40 → p < n → q < n → epochPerm seed e n p < n ∧ (epochPerm seed e n p = epochPerm seed e n q → p = q)

/-! ### Attachments, rings and tenants (02) -/

/-- 02 R29 to R44, R46 to R49: rings, doorbells, BAR2, fences and replies. A doorbell out of range is ignored and sets
BAD_TAIL; the module takes slots in order and stalls where OWN = 0; ENABLE outside the partition sets BASE_DENIED; an access
outside the partition sets OOB_ACCESS and reads zero; a reply is written once, with OWN = 0, and its vector signalled. Reads of the ring registers give what the
ring holds, with reserved bits and offsets zero (00 R8, R11).
What a stale BAR2 read may give is the model's choice (log entry 21). -/
def Obligations.RingsAndReplies : Prop :=
  (∀ (s : State) (c : RunCmd) (st r0 r1 r2 att slot : Nat), c.loc = .hub att slot → att < 4 → slot < 16 →
    (c.timedOut = true → (s.endCmd c st r0 r1 r2).host.hub = s.host.hub ∧ (s.endCmd c st r0 r1 r2).host.msix = s.host.msix) ∧
    (c.timedOut = false → sgets 0 (s.endCmd c st r0 r1 r2).host.hub (hubKey att (0x400 + 32 * slot)) 32 =
        replyBytes st c.opcode c.seq r0 r1 r2 ∧
      ∀ t a x, c.irq = true → s.tenant? c.tenant = some t → t.att = some a → s.host.atts[a]? = some x → x.link = true →
        (s.endCmd c st r0 r1 r2).host.msix = s.host.msix ++ [(a, c.ring)])) ∧
  ∀ (s : State) (att : Nat) (x : Attachment), s.host.atts[att]? = some x →
    (∀ ring r tail own i, s.ring? att ring = some r → s.attUp att = true →
      (ringSlots ring r < (tail - r.head).toNat ∨ (tail - r.head).toNat < (r.tail - r.head).toNat →
        ∃ u, exec (.doorbellWrite att ring tail) s = .next u ∧ OnlyAtt att s u ∧
          u.ring? att ring = some { r with badTail := true }) ∧
      (ring = 0 → r.window = true → r.enable = true → r.head = r.tail → tail = r.head + 1 → i = r.head.toNat % 16 →
        own = bitOf (sget 0 s.host.hub (hubKey att (0x400 + 32 * i + 1))).toNat 0 →
        ∃ u, exec (.doorbellWrite att ring tail) s = .next u ∧ SameBut [.host, .clk] s u ∧
          (∀ a, a ≠ att → u.host.atts[a]? = s.host.atts[a]?) ∧ u.ring? att ring = some (if own then
          { r with tail := tail, head := tail, stalled := false, taken := r.taken ++
            [{ index := r.head, loc := .hub att i, bytes := sgets 0 s.host.hub (hubKey att (64 * i)) 64, uid := s.clk.nextId,
               timedOut := false }] }
          else { r with tail := tail, ownStall := true, stalled := true })) ∧
      (r.enable = false → (r.tail - r.head).toNat ≤ ringSlots ring r → ∃ u, exec (.doorbellWrite att ring r.tail) s = .next u ∧
        u.ring? att ring = some { r with stalled := false })) ∧
    (∀ ring r, s.ring? att ring = some r → s.attUp att = true → (∀ w ∈ x.posted, s.postedWaits w = false) →
      ∃ u y, exec (.doorbellRead att ring) s = .next u ∧ u.host.readData = toLE 8 r.tail.toNat ∧ u.host.atts[att]? = some y ∧
        y.posted = [] ∧ y.rings = x.rings ∧ (x.posted = [] → u.mem = s.mem) ∧
        ∀ a b, x.posted = [(a, b)] → a + b.length ≤ hbmEnd → s.mem.lineErr = [] → u.bytesAt a b.length = b ∧
          KeepsOutside a b.length s u) ∧
    (s.attUp att = true → ∃ u, exec (.attFenceRead att) s = .next u ∧ SameBut [.host] s u ∧
      u.host.readData = toLE 8 (x.fenceCount + 1).toNat ∧
      u.host.atts[att]? = some { x with prefetch := [], fenceCount := x.fenceCount + 1 }) ∧
    (∀ ring r n log2, s.ring? att ring = some r → s.attUp att = true → r.enable = false → n = ringSlots 1 { r with log2 := log2 } →
      (s.boundTo att = none → ring ≠ 0 → ∃ u, exec (.ringEnable att ring log2) s = .next u ∧ OnlyAtt att s u ∧
        u.ring? att ring = some { r with log2 := log2, baseDenied := true }) ∧
      (s.boundTo att = none → ring = 0 → r.head = r.tail → ∃ u, exec (.ringEnable att ring log2) s = .next u ∧
        OnlyAtt att s u ∧ u.ring? att ring = some { r with log2 := log2, enable := true, window := true, stalled := false }) ∧
      (∀ t, s.boundTo att = some t → inPart t false true r.base.toNat (64 * n) = false →
        ∃ u, exec (.ringEnable att ring log2) s = .next u ∧ OnlyAtt att s u ∧
          u.ring? att ring = some { r with log2 := log2, baseDenied := true }) ∧
      (∀ t, s.boundTo att = some t → inPart t false true r.base.toNat (64 * n) = true → r.base.toNat + 64 * n ≤ hbmEnd →
        inPart t false true r.replyBase.toNat (32 * n) = true → r.replyBase.toNat + 32 * n ≤ hbmEnd → r.head = r.tail →
        ∃ u, exec (.ringEnable att ring log2) s = .next u ∧ OnlyAtt att s u ∧
          u.ring? att ring = some { r with log2 := log2, enable := true, window := false, stalled := false })) ∧
    (∀ ring r log2, s.ring? att ring = some r → s.attUp att = true → ∃ u, exec (.ringDisable att ring log2) s = .next u ∧
      OnlyAtt att s u ∧ u.ring? att ring = some { r with enable := false, log2 := log2 }) ∧
    (∀ off n stale, s.attUp att = true → 1 ≤ n →
      (s.bar2Ok att off n = false → ∃ u, exec (.bar2Read att off n stale) s = .next u ∧ SameBut [.host] s u ∧
        u.host.readData = zeros n ∧ u.host.atts[att]? = some { x with oob := true }) ∧
      (s.bar2Ok att off n = true → hbmAny s.groupInit off n = false → stale = false → s.mem.lineErr = [] → ∃ u, exec (.bar2Read att off n stale) s = .next u ∧
        SameBut [.host] s u ∧ u.host.readData = s.bytesAt off n ∧ u.host.readPoison = false ∧
        ∃ y, u.host.atts[att]? = some y ∧ y.oob = x.oob ∧ ∀ e ∈ y.prefetch, e.2 = s.bytesAt (e.1 * 64) 64)) ∧
    (∀ off data, s.attUp att = true → data ≠ [] →
      (s.bar2Ok att off data.length = false → ∃ u, exec (.bar2Write att off data) s = .next u ∧ SameBut [.host] s u ∧
        u.host.atts[att]? = some { x with oob := true }) ∧
      (s.bar2Ok att off data.length = true → ∃ u, exec (.bar2Write att off data) s = .next u ∧ SameBut [.host] s u ∧
        u.host.atts[att]? = some { x with posted := x.posted ++ [(off, data)] })) ∧
    (∀ c slot, s.host.running.find? (fun r => r.uid == c.uid) = some c → c.loc = .hub att slot → slot < 16 → att < 4 →
      c.timeoutMs ≠ 0 → c.irq = false → (c.timedOut = true → exec (.replyTimeout c.uid) s = .next s) ∧
      (c.timedOut = false → ∃ u, exec (.replyTimeout c.uid) s = .next u ∧ SameBut [.host] s u ∧
        sgets 0 u.host.hub (hubKey att (0x400 + 32 * slot)) 32 = replyBytes stTimeout c.opcode c.seq 0 0 0 ∧
        u.host.running.find? (fun r => r.uid == c.uid) = some { c with timedOut := true })) ∧
    (∀ t r q i, i < 8 → s.boundTo att = some t → s.ring? att i = some r → s.attUp att = true → q = 0x1000 + 0x100 * i →
      (s.readRegister (.bar0 att) 0).toNat / 2 ^ 16 % 2 ^ 16 = x.tenant % 2 ^ 8 + t.tiles.toNat * 2 ^ 8 ∧
      (s.readRegister (.bar0 att) 0x10).getLsbD 0 = x.oob ∧ (s.readRegister (.bar0 att) 0x10).getLsbD 1 = x.orphanWarn ∧
      s.readRegister (.bar0 att) q = r.base ∧ s.readRegister (.bar0 att) (q + 8) = r.replyBase ∧
      s.readRegister (.bar0 att) (q + 0x18) = r.tail.setWidth 64 ∧ s.readRegister (.bar0 att) (q + 0x20) = r.head.setWidth 64 ∧
      (s.readRegister (.bar0 att) (q + 0x28)).toNat < 16 ∧ (s.readRegister (.bar0 att) (q + 0x28)).getLsbD 1 = r.ownStall ∧
      ∀ o, 0x28 < o → o < 0x100 → s.readRegister (.bar0 att) (q + o) = 0) ∧
    ∀ ring r tk rest slot, s.ring? att ring = some r → r.taken = tk :: rest → tk.timedOut = false → fld tk.bytes 0 2 ∉ assignedOpcodes →
      bitOf (fld tk.bytes 2 2) 2 = false → bitOf (fld tk.bytes 2 2) 1 = false → tk.loc = .hub att slot → slot < 16 → att < 4 →
      ∃ u, exec (.badOpcode att ring) s = .next u ∧ SameBut [.host] s u ∧ u.ring? att ring = some { r with taken := rest } ∧
        sgets 0 u.host.hub (hubKey att (0x400 + 32 * slot)) 32 = replyBytes stBadOpcode (BitVec.ofNat 16 (fld tk.bytes 0 2))
          (BitVec.ofNat 32 (fld tk.bytes 4 4)) 0 0 0

/-- 01 R1; 02 R31, R50 to R59; 17 R600: STATUS, IDENTIFY, ATTACH and DETACH, the reset of an attachment, the orphan hold and the
clearing of released memories. A new ticket differs from the one before; an attachment trains while REFCLK is present alone, and
whether it was is kept (19 R637).
Ticket and serial are free values (log entries 6 and 7); how a release stops jobs, and ATTACH through a bound
attachment, are readings of the model's (log entries 17 and 42). -/
def Obligations.TenantsComeAndGo : Prop :=
  ∀ (s s1 : State) (att ring : Nat) (rc : RunCmd) (c : Cmd),
    (s.starts 0x0001 .inline att ring rc c s1 → c.z 16 48 = true → Replies (exec (.statusCmd att ring) s) s1 rc stOK
      (bringUpCode s1.pow.bringUp + s1.pow.cause % 256 * 2 ^ 8 +
        ((s1.host.tenants.filter fun t => t.att.isSome).map fun t => 2 ^ (t.id - 1)).sum * 2 ^ 16) s1.pow.selftest.toNat s1.timeMs) ∧
    (s.starts 0x0002 .inline att ring rc c s1 → c.z 16 48 = true → Replies (exec (.identify att ring) s) s1 rc stOK
      0x00A249325644 (s1.fab.modId.getD 0 + s1.fab.slotId * 2 ^ 15 + att * 2 ^ 21) Config.serial.toNat) ∧
    (s.starts 0x0003 .inline att ring rc c s1 →
      (c.tenant ≠ 0 → Replies (exec (.attach att ring) s) s1 rc stDenied 0 0 0) ∧
      (∀ i l, c.tenant = 0 → c.f 16 1 = 0 → c.z 18 2 = true → c.z 32 32 = true → 1 ≤ c.f 17 1 → c.f 17 1 ≤ 8 → c.f 20 4 ≤ 604800 →
        1 ≤ i → i ≤ 4 → s1.tenant? i = none → bitOf s1.host.clearHub.toNat (i - 1) = false →
        (∀ j, 1 ≤ j → j < i → s1.tenant? j ≠ none ∨ bitOf s1.host.clearHub.toNat (j - 1) = true) →
        l = s1.freeTiles.take (c.f 17 1) → c.f 17 1 ≤ s1.freeTiles.length → att < s1.host.atts.length →
        ∃ (v : State) (t : Tenant) (x : Attachment), Replies (exec (.attach att ring) s) v rc stOK
            (i + (l.map fun t => 2 ^ t).sum * 2 ^ 8) s1.newTicket.1.toNat 0 ∧ v.tenant? i = some t ∧ t.id = i ∧
          t.tiles = BitVec.ofNat 8 (l.map fun t => 2 ^ t).sum ∧ t.att = some att ∧ t.ticket = s1.newTicket.1 ∧ (s1.host.tenants.length < 2 ^ 64 → ∀ o ∈ s1.host.tenants, o.ticket ≠ t.ticket) ∧
          t.holdS = c.f 20 4 ∧ t.plans = [] ∧ v.host.atts[att]? = some x ∧ x.tenant = i) ∧
      (c.tenant = 0 → c.f 16 1 = 1 → c.z 17 1 = true → c.z 18 2 = true → c.z 32 32 = true →
        ((∀ t ∈ s1.host.tenants, t.ticket.toNat ≠ c.f 24 8) → Replies (exec (.attach att ring) s) s1 rc stAuthFailed 0 0 0) ∧
        ∀ t, s1.host.tenants.find? (fun t => t.ticket.toNat == c.f 24 8) = some t → s1.tenant? t.id = some t → t.releasing = false →
          (t.att ≠ none → Replies (exec (.attach att ring) s) s1 rc stDenied 0 0 0) ∧
          (t.att = none → att < s1.host.atts.length → ∃ (v : State) (y : Tenant),
            Replies (exec (.attach att ring) s) v rc stOK (t.id + t.tiles.toNat * 2 ^ 8) s1.newTicket.1.toNat 0 ∧
            v.tenant? t.id = some y ∧ y.att = some att ∧ y.ticket = s1.newTicket.1 ∧ (s1.host.tenants.length < 2 ^ 64 → y.ticket ≠ t.ticket) ∧ y.saved = [] ∧ y.pendVec =
              (if (s1.host.atts[att]?).any (·.link) then [] else t.pendVec) ∧
            ∀ i q r, t.saved[i]? = some q → s1.ring? att i = some r → ∃ z, v.ring? att i = some z ∧ z.base = q.base ∧
              z.replyBase = q.replyBase ∧ z.enable = q.enable ∧ z.log2 = q.log2 ∧ z.tail = q.tail ∧ z.window = q.window))) ∧
    (∀ t, s.starts 0x0004 .inline att ring rc c s1 → s1.tenant? c.tenant = some t → c.z 17 47 = true → t.att = some att →
      t.releasing = false →
      (c.f 16 1 = 1 → ∃ (v : State) (y : Tenant), Replies (exec (.detach att ring) s) v rc stOK 0 s1.newTicket.1.toNat 0 ∧
        v.tenant? t.id = some y ∧ y.att = none ∧ y.ticket = s1.newTicket.1 ∧ (s1.host.tenants.length < 2 ^ 64 → y.ticket ≠ t.ticket) ∧ y.lastAtt = att ∧ v.work = s1.work ∧
        ∀ x, v.host.atts[att]? = some x → x.tenant = 0) ∧
      (c.f 16 1 = 0 → ∃ v : State,
        (v.tenant? t.id = none ∧ Replies (exec (.detach att ring) s) v rc stOK 0 0 0) ∨
        ∃ y : Tenant, v.tenant? t.id = some y ∧ y.releasing = true ∧ y.att = none ∧
          Waits (exec (.detach att ring) s) v rc (.release t.id))) ∧
    (∀ x, s.host.atts[att]? = some x → x.link = true →
      (x.tenant ≠ 0 → ∃ t, s.tenant? x.tenant = some t ∧ t.att = some att) → ∃ u y, exec (.attachmentReset att) s = .next u ∧
        u.work = s.work ∧ u.host.atts[att]? = some y ∧ y.link = false ∧ y.tenant = 0 ∧
        ((∀ w ∈ x.posted, s.postedWaits w = false) → y.posted = []) ∧
        (∀ r ∈ y.rings, r.enable = false) ∧ ∀ t, s.tenant? x.tenant = some t → x.tenant ≠ 0 → ∃ z : Tenant,
          u.tenant? x.tenant = some z ∧ z.att = none ∧ z.lastAtt = att ∧ z.ticket = t.ticket) ∧
    (∀ x, s.host.atts[att]? = some x → ∃ u v : State,
      exec (.attachmentLinkUp att true) s = .next u ∧ exec (.attachmentLinkUp att false) s = .next v ∧
      SameBut [.host, .boot] s u ∧ SameBut [.boot] s v ∧ u.boot.refclk = true ∧ v.boot.refclk = false ∧
      (att < s.attCount → s.domOn 2 = true → u.host.atts[att]? = some { x with link := true })) ∧
    (∀ i t, s.tenant? i = some t →
      (t.att ≠ none ∨ t.holdS = 0 → exec (.orphanWarn i) s = .next s ∧ exec (.orphanHoldExpiry i) s = .next s) ∧
      (t.att = none → t.holdS ≠ 0 → t.releasing = false →
        (∀ x, s.host.atts[t.lastAtt]? = some x → ∃ u, exec (.orphanWarn i) s = .next u ∧ OnlyAtt t.lastAtt s u ∧
          u.host.atts[t.lastAtt]? = some { x with orphanWarn := true }) ∧
        ∃ u, exec (.orphanHoldExpiry i) s = .next u ∧ (u.tenant? i = none ∨ ∃ y : Tenant, u.tenant? i = some y ∧ y.releasing = true))) ∧
    (∀ i, 1 ≤ i → i ≤ 4 → bitOf s.host.clearHub.toNat (i - 1) = true → ∃ u, exec (.tenantClearDone true i) s = .next u ∧
      SameBut [.hubMover, .host] s u ∧ bitOf u.host.clearHub.toNat (i - 1) = false ∧ u.host.clearTiles = s.host.clearTiles ∧
      ∀ ch x, 8 * (i - 1) ≤ ch → ch < 8 * i → s.chan? 8 ch = some x → u.chan? 8 ch = some Chan.reset) ∧
    ∀ i, i < 8 → bitOf s.host.clearTiles.toNat i = true → ∃ u, exec (.tenantClearDone false i) s = .next u ∧
      SameBut [.tiles, .mem, .host] s u ∧ bitOf u.host.clearTiles.toNat i = false ∧ u.host.clearHub = s.host.clearHub ∧
      (∀ a, i * groupBytes ≤ a → a < (i + 1) * groupBytes → u.byteAt a = 0) ∧
      (∀ a, tileWin i ≤ a → a < tileWin i + recOff → u.byteAt a = 0) ∧
      ∀ k y, u.core? i k = some y → y.acc = []

/-! ### Power, resets, firmware and sideband (17 to 19) -/

/-- 17 R593 to R599, R610 to R614: the power and reset commands and what other modules ask for. Domains switch as named and
the reply waits for them; SLEEP replies, releases the tenant and powers all but D0 and D1 off; waking powers them on; a block
reset resets its block once it is idle; MODULE_RESET and RESET_REQ begin an episode of reach B.
Which items a stop counts, when a block is idle, and some statuses are readings of the model's (log entries 33, 38,
102, 103 and 105). -/
def Obligations.DomainsSleepAndBlocks : Prop :=
  ∀ (s s1 : State) (att ring : Nat) (rc : RunCmd) (c : Cmd),
    (∀ mask on old new tiles, s.starts 0x0702 .inline att ring rc c s1 → mask = c.f 16 4 → on = (c.f 20 1 == 1) →
      old = s1.pow.domains.toNat → new = (if on then old ||| mask else old - (old &&& mask)) →
      tiles = ((List.range 8).filter fun t => bitOf mask (4 + t) || bitOf mask (12 + t)) → c.z 21 43 = true → c.f 20 1 ≤ 1 →
      mask ≠ 0 → mask < 2 ^ 20 → bitOf mask 0 = false → bitOf mask 2 = false →
      (∀ t ∈ tiles, bitOf (s1.tilesOf c.tenant) t = true) → (bitOf mask 1 = true ∨ bitOf mask 3 = true → s1.holdsAll c.tenant = true) →
      (domainsLegal new = false → Replies (exec (.domainPower att ring) s) s1 rc stBadParam 0 0 0) ∧
      (domainsLegal new = true →
        (on = false → bitOf mask 1 = false ∧ (bitOf mask 3 = true → s1.media.streams = []) ∧
          ∀ t ∈ tiles, s1.tileJob t = false ∧ ∀ x, s1.tiles[t]? = some x → x.kernel = none) →
        ∃ v : State, v.pow.domains.toNat = new ∧
          (v.domainsDone mask = true → Replies (exec (.domainPower att ring) s) v rc stOK 0 0 0) ∧
          (v.domainsDone mask = false → Waits (exec (.domainPower att ring) s) v rc (.domains (BitVec.ofNat 20 mask))))) ∧
    (s.starts 0x0704 .inline att ring rc c s1 → c.z 16 48 = true → (∀ r ∈ s1.host.running, r.wait ≠ .domains 0) →
      (s1.holdsAll c.tenant = false → Replies (exec (.sleepCmd att ring) s) s1 rc stBusy 0 0 0) ∧
      (s1.holdsAll c.tenant = true → s1.host.tenants.length = 1 → s1.work.jobs = [] → s1.work.kernels = [] →
        s1.media.streams = [] → s1.media.pipelines = [] → s1.media.kvs = [] → ∃ u, exec (.sleepCmd att ring) s = .next u ∧
          u = ((s1.ends rc (.wait (.domains 0))).finish { rc with wait := .domains 0 } stOK 0 0 0).enterSleep c.tenant ∧
          u.pow.asleep = true ∧ u.pow.bringUp = .none ∧ u.tenant? c.tenant = none ∧ ∀ d, 2 ≤ d → d < 20 → u.domOn d = false)) ∧
    (∀ m, s.starts 0x0705 .inline att ring rc c s1 → m = c.f 16 2 → m < 2 ^ 15 → c.z 18 46 = true →
      (s1.fab.modId = some m → Replies (exec (.wakeCmd att ring) s) s1 rc stOK 0 0 0) ∧
      (s1.fab.modId ≠ some m → s1.inMap m = false → Replies (exec (.wakeCmd att ring) s) s1 rc stMemberLost 0 0 0) ∧
      ∀ v, s1.fab.modId ≠ some m → s1.inMap m = true → s1.send (ctlPkt 0x2E m 0 0 []) = (v, true) →
        Replies (exec (.wakeCmd att ring) s) v rc stOK 0 0 0) ∧
    (exec .wakeN s = .next s.leaveSleep ∧ (s.pow.asleep = false → s.leaveSleep = s) ∧
      (s.pow.asleep = true → s.pow.episode = none → s.leaveSleep.pow.asleep = false ∧ s.leaveSleep.pow.bringUp = .selftest ∧
        ∀ d, 2 ≤ d → d < 20 → s.leaveSleep.domOn d = true) ∧
      ∀ p, s.takeRx (fun p => p.ty == 0x2E) = some (p, s1) → ctlFieldsOk p 0 0 = true → p.j = 0 →
        exec .wakeControlPacket s = .next s1.leaveSleep) ∧
    (∀ b, s.starts 0x0801 .inline att ring rc c s1 → b = blockOf c → c.z 19 1 = true → c.z 22 42 = true → c.f 20 2 ≤ 1000 →
      1 ≤ b.target → b.target ≤ 5 → b.tile < 8 → b.index < 16 →
      (bitOf (s1.tilesOf c.tenant) b.tile = false → Replies (exec (.blockReset att ring) s) s1 rc stDenied 0 0 0) ∧
      (bitOf (s1.tilesOf c.tenant) b.tile = true →
        (∀ x ∈ s1.work.blockResets, BlockReset.meets x b = true → Replies (exec (.blockReset att ring) s) s1 rc stBusy 0 0 0) ∧
        ((∀ x ∈ s1.work.blockResets, BlockReset.meets x b = false) →
          (s1.blockIdle b = false → ∃ v : State, Waits (exec (.blockReset att ring) s) v rc .blockReset ∧
            v.work.blockResets = s1.work.blockResets ++ [b]) ∧
          (s1.blockIdle b = true → b.target ≠ 1 → s1.kernelOn b.tile = none → ∃ v : State,
            Replies (exec (.blockReset att ring) s) v rc stOK 0 0 0 ∧
            (b.target = 2 → ∀ x, s1.core? b.tile b.index = some x → v.core? b.tile b.index = some { Core.reset with
              checksumFaults := x.checksumFaults, faultTimes := x.faultTimes, lastFaultMs := x.lastFaultMs }) ∧
            (b.target = 3 → ∀ x, s1.engine? b.tile b.index = some x → v.engine? b.tile b.index = some Engine.reset) ∧
            (b.target = 4 → ∀ x, v.tiles[b.tile]? = some x → x.xu = [] ∧ x.xuDone = none) ∧
            (b.target = 5 → ∀ x, v.tiles[b.tile]? = some x → x.spw = [] ∧ x.spwDone = none ∧ x.refBuf = []))))) ∧
    (∀ uid b, s.work.blockResets.find? (fun b => b.uid == uid) = some b →
      (b.stage ≠ 0 → exec (.blockIdleTimeout uid) s = .next s) ∧
      (b.stage = 0 → ∃ v : State, exec (.blockIdleTimeout uid) s = .next (v.settle).blocksOn ∧
        v.work.blockResets.find? (fun b => b.uid == uid) = some { b with stage := 1, late := true, items := s.blockItems b } ∧
        v.tel.events.head?.map (·.code) = some 0x0063)) ∧
    (∀ m, s.starts 0x0802 .inline att ring rc c s1 → m = c.f 16 2 → c.z 18 6 = true → c.z 32 32 = true →
      (∀ r ∈ s1.host.running, r.wait ≠ .domains 0) →
      (s1.holdsAll c.tenant = false → Replies (exec (.moduleReset att ring) s) s1 rc stDenied 0 0 0) ∧
      (s1.holdsAll c.tenant = true → s1.fab.modId = some m → s1.pow.auxGood = true → s1.pow.episode = none →
        ∃ u, exec (.moduleReset att ring) s = .next u ∧
          u = ((s1.ends rc (.wait (.domains 0))).finish { rc with wait := .domains 0 } stOK 0 0 0).assertSource .firmware ∧
          u.pow.cause = (s1.recorded .firmware).code ∧ u.pow.episode = some false ∧ u.host.tenants = [] ∧ u.host.running = []) ∧
      (s1.holdsAll c.tenant = true → m < 2 ^ 15 → s1.fab.modId ≠ some m → s1.inMap m = false →
        Replies (exec (.moduleReset att ring) s) s1 rc stMemberLost 0 0 0) ∧
      ∀ v, s1.holdsAll c.tenant = true → m < 2 ^ 15 → s1.fab.modId ≠ some m → s1.inMap m = true →
        s1.send (ctlPkt 0x2F m (BitVec.ofNat 64 (c.f 24 8)) 0 []) = (v, true) → ∃ (w : State) (r : Remote),
          Waits (exec (.moduleReset att ring) s) w rc (.peerReset r.tag) ∧ w.fab.remotes = v.fab.remotes ++ [r] ∧
          r.dest = m ∧ r.what = .reset c.uid (BitVec.ofNat 64 (c.f 24 8))) ∧
    (∀ h, s.starts 0x0803 .inline att ring rc c s1 → h = (if c.f 18 2 = 0 then 24 else c.f 18 2) → c.z 17 1 = true →
      c.z 20 44 = true → 2 ≤ h → h ≤ 168 →
      (s1.holdsMask c.tenant (c.f 16 1) = false → Replies (exec (.scrubPolicy att ring) s) s1 rc stDenied 0 0 0) ∧
      (s1.holdsMask c.tenant (c.f 16 1) = true → ∃ v : State, Replies (exec (.scrubPolicy att ring) s) v rc stOK 0 0 0 ∧
        SameBut [.tiles] s1 v ∧ ∀ t x, s1.tiles[t]? = some x → v.tiles[t]? = some (if t < 8 ∧ bitOf (c.f 16 1) t = true then
          { x with mg := { x.mg with nextHours := h } } else x))) ∧
    ∀ p j, s.takeRx (fun p => p.ty == 0x2F) = some (p, s1) → ctlFieldsOk p 0 0 = true → s1.pow.auxGood = true →
      s1.pow.episode = none →
      (s1.jobOfPkt p = none → exec .resetReq s = .next (s1.send { pktBlank with
        ty := 0x21, vc := 6, dest := p.src, tag := p.tag, code := stDenied, j := p.j }).1) ∧
      (s1.jobOfPkt p = some j → p.src ∈ j.members → j.st = .running ∨ j.st = .paused ∨ j.st = .failed →
        ∃ u, exec .resetReq s = .next u ∧ u.pow.cause = (s1.recorded .peer).code ∧ u.pow.episode = some false ∧ u.host.tenants = [])

/-- 17 R587 to R591, R600 to R609, R615, R616; 18 R621 to R623: supplies, reset sources, release and self-test. A source begins
or widens the episode of its reach and is the cause, or, of those first seen in the same sample, the one of the widest reach
and then the lowest code is; an episode of reach A powers every domain but D0 off and ends what runs;
the module leaves reset once every source has released, with each guard at the ledger's value, or 30 mV where the ledger
cannot be read (03 R112); self-test ends in READY or FAILED. And 17 R592: no class of rails comes on before those ahead of it
are good, none goes off before those behind it are low, and a domain that is on has all its rails good.
The verdicts on objects are uninterpreted (log entry 30); the rows of one sample, the spare copy when none ran, and some corners
of release and of what a reset clears, are readings of the model's (log entries 83, 31, 91, 92, 95, 98 and 100). -/
def Obligations.SuppliesAndResets : Prop :=
  ∀ s : State,
    (s.pow.auxGood = false → ∃ u, exec .powerOn s = .next u ∧ SameBut [.pow, .boot] s u ∧ u.pow.auxGood = true ∧
      u.pow.domains = 1 ∧ u.pow.sources = [.powerOn] ∧ u.pow.episode = some true ∧ u.pow.cause = 1) ∧
    (s.pow.auxGood = true → s.pow.auxHeld = false → ∃ u, exec .auxMainTimer s = .next u ∧ SameBut [.pow] s u ∧
      u.pow.auxHeld = true ∧ u.pow.sources = s.pow.sources.filter (· != .powerOn) ∧ u.pow.episode = s.pow.episode) ∧
    (∀ mv, s.pow.powerFail = false → Source.mainLoss ∉ s.pow.sources →
      (mv < 45600 → exec (.mainGood mv) s = .next s) ∧
      (45600 ≤ mv → s.pow.auxHeld = true → s.pow.episode = none → s.pow.asleep = false → s.domOn 2 = false → s.pow.stage = 2 →
        ∃ u, exec (.mainGood mv) s = .next u ∧ u.pow.mainGood = true ∧ u.pow.bringUp = .boot ∧
          (∀ d, 2 ≤ d → d < 20 → u.domOn d = true) ∧ (s.pow.reach = false → u.domOn 1 = true) ∧
          (s.pow.reach = true → u.domOn 1 = s.domOn 1))) ∧
    (∀ mv, s.pow.auxGood = true → s.pow.mainGood = true → s.pow.powerFail = false →
      mv < 44400 ∨ 59600 < mv ∨ s.pow.stage = 2 → ∃ u, exec (.powerFail mv) s = .next u ∧ SameBut [.pow, .resv, .tel] s u ∧
        u.pow.powerFail = true ∧ u.resv.resHold = true ∧ u.tel.events.head?.map (·.code) = some 0x0060 ∧
        u.tel.persistent.length = s.tel.persistent.length + 1 ∧ (s.driven = true → u.tel.alertN = false) ∧
        ∀ t, u.issues t = false) ∧
    (s.pow.powerFail = true → s.pow.auxGood = true → s.pow.episode = none → Source.mainLoss ∉ s.pow.sources →
      ∃ u, exec .holdupEnd s = .next u ∧ u.pow.powerFail = false ∧ u.pow.mainGood = false ∧ u.pow.cause = (s.recorded .mainLoss).code ∧
        u.pow.episode = some true ∧ u.pow.sources = s.pow.sources ++ [.mainLoss] ∧ ∀ d, 1 ≤ d → d < 20 → u.domOn d = false) ∧
    (Source.mainLoss ∈ s.pow.sources → ∃ u, exec .mainStable s = .next u ∧ SameBut [.pow] s u ∧ u.pow.mainGood = true ∧
      u.pow.sources = s.pow.sources.filter (· != .mainLoss)) ∧
    (s.pow.auxGood = true → ∃ u, exec .auxFail s = .next u ∧ u.pow.auxGood = false ∧ u.pow.domains = 0 ∧ u.pow.cause = 1 ∧
      u.pow.episode = none ∧ u.host.tenants = [] ∧ u.host.running = [] ∧ u.fab.originValid = false ∧ u.pow.stage = 0) ∧
    (s.pow.auxGood = true →
      (Source.resetPin ∉ s.pow.sources → s.pow.episode ≠ some true → ∃ u, exec (.resetPin true) s = .next u ∧ u.pow.cause = (s.recorded .resetPin).code ∧
        u.pow.episode = some true ∧ u.pow.sources = s.pow.sources ++ [.resetPin] ∧ u.host.running = [] ∧ u.host.tenants = [] ∧
        u.work.jobs = [] ∧ u.work.kernels = [] ∧ u.fab.modId = none ∧ u.pow.stage = 0 ∧ ∀ d, 1 ≤ d → d < 20 → u.domOn d = false) ∧
      (s.pow.episode = none → ∃ u, exec .watchdog s = .next u ∧ u.pow.cause = (s.recorded .watchdog).code ∧ u.pow.episode = some true ∧
        u.tel.persistent.head?.map (·.code) = some 0x0062) ∧
      (∀ t temp, t < 8 → Source.thermalTrip ∉ s.pow.sources → s.pow.episode = none →
        (temp < 1150 → exec (.thermalTrip t temp) s = .next s) ∧
        (1150 ≤ temp → ∃ u, exec (.thermalTrip t temp) s = .next u ∧ u.pow.cause = (s.recorded .thermalTrip).code ∧ u.pow.episode = some false ∧
          u.tel.thermTripN = false ∧ u.host.running = [] ∧ u.domOn 1 = s.domOn 1 ∧ (∀ d, 2 ≤ d → d < 20 → u.domOn d = false) ∧
          u.tel.persistent.head?.map (·.code) = some 0x0061))) ∧
    (∀ x, (s.pow.sampled = [] → s.recorded x = x) ∧ s.recorded x ∈ x :: s.pow.sampled ∧
      ∀ y ∈ x :: s.pow.sampled, y.before (s.recorded x) = false) ∧
    (exec (.resetPin false) s = .next { s with pow := { s.pow with sources := s.pow.sources.filter (· != .resetPin) } }) ∧
    (∃ u, exec .tripHoldExpiry s = .next u ∧ SameBut [.pow, .tel] s u ∧ u.tel.thermTripN = true ∧
      u.pow = { s.pow with sources := s.pow.sources.filter (· != .thermalTrip) }) ∧
    (∀ slot ledger a, s.pow.episode = some a → s.pow.auxGood = true →
      (∀ x ∈ s.pow.sources, x.timed = false → exec (.resetRelease slot ledger) s = .next s) ∧
      ((∀ x ∈ s.pow.sources, x.timed = true) → ∃ u, exec (.resetRelease slot ledger) s = .next u ∧ u.pow.episode = none ∧
        u.pow.sources = [] ∧ u.pow.cause = s.pow.cause ∧ u.clk.resetUs = s.clk.nowUs ∧ (a = true → u.fab.slotId = slot.toNat ∧
          ∀ (t : Nat) (x : Tile), s.tiles[t]? = some x → ∃ z : Tile, u.tiles[t]? = some z ∧ z.gov.guard = if ledger then x.gov.guardLedger else 30) ∧
        (a = false → s.pow.mainGood = true → s.pow.auxHeld = true → s.pow.asleep = false → s.domOn 2 = false → s.pow.stage = 2 →
          s.pow.reach = true → u.pow.bringUp = .boot ∧ u.domOn 1 = s.domOn 1 ∧ ∀ d, 2 ≤ d → d < 20 → u.domOn d = true))) ∧
    (∀ bits n, s.pow.bringUp = .boot ∨ s.pow.bringUp = .selftest → (∀ t, t < 8 → s.groupReady t = true) →
      n = s.pow.selftest ||| (bits &&& 0xFFFFF0180) → ∃ u, exec (.selftestComplete bits) s = .next u ∧ u.pow.selftest = n ∧
        (u.pow.bringUp = .failed ↔ ((∃ i ∈ [7, 8, 9, 32, 33, 34, 35], bitOf n.toNat i = true) ∨
          bitOf n.toNat 2 = true ∧ bitOf n.toNat 3 = true)) ∧ (u.pow.bringUp = .failed ∨ u.pow.bringUp = .ready) ∧
        u.fab.loopback = !bitOf n.toNat 32 ∧ ∀ t x, s.tiles[t]? = some x →
          (u.tiles[t]?).map (·.selfFence) = some (x.selfFence || bitOf n.toNat (16 + t) || bitOf n.toNat (24 + t))) ∧
    ∀ d, (∀ c, (∃ r ∈ railsOf d, r.cls.rank < c.rank ∧ s.railGood r = false) → s.classOn d c = s) ∧
      (∀ c, (∃ r ∈ railsOf d, c.rank < r.cls.rank ∧ s.railLow r = false) → s.classOff d c = s) ∧
      ∀ r ∈ railsOf d, (s.domOn d = false → (s.domainOn d).railGood r = true) ∧ (s.railsDown d).railLow r = true

/-- 18 R618, R622, R624 to R629, R632, R633; 02 BAR0 registers; 19 R641 to R646: firmware, attestation, registers and the
sideband. An object that fails its checks is refused with the reason and writes nothing; one that passes goes into the copy
that does not run, and counts the bytes written; a second one while an earlier one waits is BUSY; counters only rise. The module answers
on the sideband at its dynamic address, and before one at 8 plus bits [4:0] of its slot (19 R641); a START or CLEAR bit stands
until the module takes it (00 R11, R13). Registers out of range, and recovery registers outside recovery, act on nothing.
Signatures are uninterpreted functions (log entry 30); the spare copy when none runs, and some corners of these
commands, are readings of the model's (log entries 31, 99, 101, 104 and 106). -/
def Obligations.FirmwareAndSideband : Prop :=
  ∀ (s s1 : State) (att ring : Nat) (rc : RunCmd) (c : Cmd) (t : Tenant) (ty : Nat),
    (s1.tenant? c.tenant = some t → s1.holdsAll c.tenant = true → s1.fwBusy = true → s.starts 0x0902 .inline att ring rc c s1 →
      c.z 18 46 = true → 1 ≤ c.f 16 1 → c.f 16 1 ≤ 3 → c.f 17 1 ≤ 2 → Replies (exec (.fwActivate att ring) s) s1 rc stBusy 0 0 0) ∧
    (s1.tenant? c.tenant = some t → s1.holdsAll c.tenant = true → s1.resv.resHold = false → s1.fwBusy = false →
      (∀ n b r i, s.starts 0x0901 .inline att ring rc c s1 → ty = c.f 16 1 → n = c.f 32 8 → c.z 17 7 = true → c.z 40 24 = true →
        1 ≤ ty → ty ≤ 3 → objHeader ≤ n → n ≤ objHeader + bodyLimit ty → inPart t false false (c.f 24 8) n = true →
        s1.cmdRead (c.f 24 8) n = (s1, stOK) → b = s1.bytesAt (c.f 24 8) n → r = s1.verify ty b → i = (s1.copies ty).spare →
        (r = 1 → Replies (exec (.fwStage att ring) s) s1 rc stBadParam 0 0 0) ∧
        (1 < r → Replies (exec (.fwStage att ring) s) s1 rc stAuthFailed r 0 0) ∧
        (r = 0 → ∃ v : State, Replies (exec (.fwStage att ring) s) v rc stOK 0 (objSvn b) i ∧ SameBut [.boot, .resv] s1 v ∧
          v.resv.hostBytes = s1.resv.hostBytes + n +
            (if (s1.copies ty).tryPending = true ∧ (s1.copies ty).tryCopy = i then Config.recordBytes else 0) ∧
          ((s1.copies ty).tryCopy = i → (v.copies ty).tryPending = false) ∧
          (v.copies ty).obj i = b ∧ (v.copies ty).obj (1 - i) = (s1.copies ty).obj (1 - i) ∧
          (v.copies ty).running = (s1.copies ty).running ∧ (v.copies ty).preferred = (s1.copies ty).preferred ∧
          ∀ k, k ≠ ty → 1 ≤ k → k ≤ 3 → v.copies k = s1.copies k)) ∧
      (∀ x mode, s.starts 0x0902 .inline att ring rc c s1 → ty = c.f 16 1 → mode = c.f 17 1 → c.z 18 46 = true → 1 ≤ ty → ty ≤ 3 →
        x = s1.copies ty →
        (mode = 0 → s1.verify ty (x.obj x.spare) ≠ 0 → Replies (exec (.fwActivate att ring) s) s1 rc stAuthFailed 0 0 0) ∧
        (mode = 0 → s1.verify ty (x.obj x.spare) = 0 → ∃ v : State, Replies (exec (.fwActivate att ring) s) v rc stOK 0 0 0 ∧
          SameBut [.boot, .resv] s1 v ∧ v.copies ty = { x with tryCopy := x.spare, tryPending := true }) ∧
        (mode = 2 → ∃ v : State, Replies (exec (.fwActivate att ring) s) v rc stOK 0 0 0 ∧ SameBut [.boot, .resv] s1 v ∧
          v.copies ty = { x with tryPending := false }) ∧
        (mode = 1 → x.running ≠ some x.preferred → Replies (exec (.fwActivate att ring) s) s1 rc stBadParam 0 0 0) ∧
        (mode = 1 → x.running = some x.preferred → s1.boot.counters.length = 5 → ∃ v : State,
          Replies (exec (.fwActivate att ring) s) v rc stOK 0 0 0 ∧ SameBut [.boot, .resv] s1 v ∧ ∀ i, v.protectedCounter i =
            if i = ty - 1 then max (s1.protectedCounter i) (objSvn x.runs) else s1.protectedCounter i)) ∧
      (∀ n b r, s.starts 0x0903 .inline att ring rc c s1 → n = c.f 24 8 → c.z 32 32 = true → objHeader ≤ n →
        n ≤ objHeader + bodyLimit 4 → inPart t false false (c.f 16 8) n = true → s1.cmdRead (c.f 16 8) n = (s1, stOK) →
        b = s1.bytesAt (c.f 16 8) n → r = objReason s1.manifest? (s1.counter 4 + 1) 4 b →
        (r = 1 → Replies (exec (.keyManifest att ring) s) s1 rc stBadParam 0 0 0) ∧
        (1 < r → Replies (exec (.keyManifest att ring) s) s1 rc stAuthFailed r 0 0) ∧
        (r = 0 → fld (objBody b) 0 1 = 15 → Replies (exec (.keyManifest att ring) s) s1 rc stBadParam 0 0 0) ∧
        (r = 0 → fld (objBody b) 0 1 ≠ 15 →
          (∀ k, k ∈ [1, 2, 3] → keepsSigner (objBody b) k ((s1.copies k).obj (s1.copies k).preferred) = true) →
          keepsSigner (objBody b) 3 (s1.copies 3).runs = true → s1.boot.counters.length = 5 → ∃ v : State,
            Replies (exec (.keyManifest att ring) s) v rc stOK 0 0 0 ∧ SameBut [.boot, .resv] s1 v ∧ v.boot.manifest = b ∧
            v.boot.manifestOk = true ∧ v.protectedCounter 3 = max (s1.protectedCounter 3) (objSvn b)))) ∧
    (∀ dest cap, s.starts 0x0005 .inline att ring rc c s1 → s1.tenant? c.tenant = some t → c.f 18 2 = 0xFFFF →
      (∀ p ∈ t.plans, p.handle ≠ 0xFFFF) → cap = c.f 20 4 →
      dest = c.f 24 8 → c.z 17 1 = true → dest % 64 = 0 → inPart t false true dest cap = true → s1.mem.lineErr = [] →
      dest + cap ≤ hbmEnd → hbmAny s1.groupOff dest cap = false → hbmAny s1.groupInit dest cap = false →
      (c.f 16 1 = 0 → cap < 3821 → Replies (exec (.attest att ring) s) s1 rc stLimit 3821 0 0) ∧
      (c.f 16 1 = 0 → 3821 ≤ cap → ∃ v : State, Replies (exec (.attest att ring) s) v rc stOK 3821 0 0 ∧
        KeepsOutside dest 3821 s1 v ∧ v.bytesAt dest 512 = s1.evidence t (zeros 64) (fldBytes c.par 16 32)) ∧
      (c.f 16 1 = 1 → certBytes.length ≤ cap → ∃ v : State, Replies (exec (.attest att ring) s) v rc stOK certBytes.length 0 0 ∧
        v.bytesAt dest certBytes.length = certBytes ∧ KeepsOutside dest certBytes.length s1 v)) ∧
    (∀ a r i v x, s.attUp a = true → s.ring? a i = some r → i < 8 → s.host.atts[a]? = some x →
      (∃ u, exec (.registerWrite (.bar0 a) (0x1000 + 0x100 * i) v) s = .next u ∧ OnlyAtt a s u ∧
        u.ring? a i = some { r with base := v &&& ~~~0xFFF }) ∧
      (∃ u, exec (.registerWrite (.bar0 a) (0x1008 + 0x100 * i) v) s = .next u ∧ OnlyAtt a s u ∧
        u.ring? a i = some { r with replyBase := v &&& ~~~0xFFF }) ∧
      (∃ u, exec (.registerWrite (.bar0 a) (0x1028 + 0x100 * i) v) s = .next u ∧ OnlyAtt a s u ∧ u.ring? a i = some { r with
        badTail := r.badTail && !v.getLsbD 0, ownStall := r.ownStall && !v.getLsbD 1, baseDenied := r.baseDenied && !v.getLsbD 2 }) ∧
      (∃ u, exec (.registerWrite (.bar0 a) 0x10 v) s = .next u ∧ OnlyAtt a s u ∧ u.host.atts[a]? =
        some { x with oob := x.oob && !v.getLsbD 0, orphanWarn := x.orphanWarn && !v.getLsbD 1 })) ∧
    (s.i3cUp = true →
      (∀ a, ∃ u, exec (.i3cDynamicAddress a) s = .next u ∧ u = { s with boot := { s.boot with dynAddr := some a } } ∧
        u.i3cAddress = some a.toNat) ∧ (s.boot.dynAddr = none → s.i3cAddress = some (8 + s.fab.slotId % 32)) ∧
      (∀ v w, w = BitVec.toNat v % 2 ^ 13 → ∃ u, exec (.carrierCap v) s = .next u ∧ SameBut [.tel] s u ∧
        (600 ≤ w ∧ w ≤ 4000 → u.tel.carrierCap = w ∧ (v.getLsbD 31 = true → u.tel.capRejected = false)) ∧
        (w < 600 ∨ 4000 < w → u.tel.carrierCap = s.tel.carrierCap ∧ u.tel.capRejected = true)) ∧
      (∀ v, ∃ u, exec (.fabricOrigin v) s = .next u ∧ SameBut [.fab] s u ∧ u.fab.origin = BitVec.ofNat 15 (BitVec.toNat v) ∧
        u.fab.originValid = v.getLsbD 15 ∧ (s.fab.modId ≠ none → u.fab.modId = s.fab.modId)) ∧
      exec .sbWake s = .next s.leaveSleep) ∧
    (s.recovering = false → (∀ v, exec (.recoveryData v) s = .next s) ∧ exec .recoveryClear s = .next s ∧
      exec .recoveryStart s = .next s ∧ exec .recoveryVerified s = .next s ∧
      ∀ o v, exec (.registerWrite .i3c o v) s = .next s) ∧
    (s.recovering = true →
      (∀ v o, o = s.boot.recOffset.toNat → s.boot.rstate ≠ 1 → o + 4 ≤ recoveryBytes → ∃ u, exec (.recoveryData v) s = .next u ∧
        SameBut [.boot] s u ∧ u.boot.recOffset = s.boot.recOffset + 4 ∧ sgets 0 u.boot.recBuf o 4 = toLE 4 (BitVec.toNat v) ∧
        ∀ k, k < o ∨ o + 4 ≤ k → sget 0 u.boot.recBuf k = sget 0 s.boot.recBuf k) ∧
      (∃ u, exec .recoveryClear s = .next u ∧ SameBut [.boot] s u ∧
        (s.boot.rstate ≠ 1 → s.boot.recStart = false → u.boot.recBuf = [] ∧ u.boot.rstate = 0 ∧ u.boot.recClear = false) ∧
        (s.boot.rstate = 1 → u.boot.recBuf = s.boot.recBuf ∧ u.boot.rstate = 1 ∧ u.boot.recClear = true)) ∧
      (∃ u, exec .recoveryStart s = .next u ∧ SameBut [.boot] s u ∧ u.boot.rstate = 1 ∧
        (s.boot.recClear = false → u.boot.recBuf = s.boot.recBuf) ∧ u.boot.recStart = decide (s.boot.rstate = 1)) ∧
      (∀ b, s.boot.rstate = 1 → b = s.recoveryObj →
        (s.verify 1 b ≠ 0 → ∃ u, exec .recoveryVerified s = .next u ∧ SameBut [.boot] s u ∧ u.boot.rstate = 3 ∧
          u.boot.recReason = s.verify 1 b ∧ u.boot.stage1 = s.boot.stage1) ∧
        (s.verify 1 b = 0 → ∃ u, exec .recoveryVerified s = .next u ∧ u.boot.rstate = 2 ∧ u.boot.stage1.copy0 = b ∧
          u.boot.stage1.copy1 = s.boot.stage1.copy1 ∧ u.pow.stage ≠ 3)))

/-! ### The whole block -/

/-- The block takes the command at the front of its queue, carries it out with the queue's rest, and idles on an empty queue
(the model's own form of a block: log entry 13).
The queue and the idle step are the model's own (log entry 13). -/
def Obligations.StepTakesTheFront : Prop :=
  ∀ s : State, (∀ c rest, s.pending = c :: rest → step s = exec c { s with pending := rest }) ∧
    (s.pending = [] → step s = .next s.idle)

/-- What reset leaves (02 R50; 03 R101; 17 R600, R602, R609; 18 R624): the state in which V_AUX has just become good. POWER_ON
is asserted and is the cause, D0 alone is powered, there is no tenant, job, kernel or collective, no command runs or waits,
the caps are 4,000 W, memory lists nothing and is canonical (log entry 2). Work comes to run from here by AUX_MAIN_TIMER, which
releases POWER_ON (log entry 34).
Values that the spec does not give are the model's choices (log entries 2, 3 and 34). -/
def Obligations.ResetLeaves : Prop :=
  State.reset.memWf ∧ State.reset.mem.cells = [] ∧ State.reset.pending = [] ∧ State.reset.host.running = [] ∧
  State.reset.host.tenants = [] ∧ State.reset.work.jobs = [] ∧ State.reset.work.kernels = [] ∧ State.reset.cas.colls = [] ∧
  State.reset.pow.cause = 1 ∧ State.reset.pow.domains = 1 ∧ State.reset.pow.sources = [.powerOn] ∧
  State.reset.pow.episode = some true ∧ State.reset.pow.bringUp = .none ∧ State.reset.tel.powerCap = 4000 ∧
  State.reset.tel.carrierCap = 4000 ∧ State.reset.tiles.length = 8 ∧ State.reset.fab.ports.length = 6 ∧
  State.reset.hubMover.chans.length = 32 ∧ (∀ i, State.reset.protectedCounter i = 0) ∧
  ∃ u, exec .auxMainTimer State.reset = .next u ∧ u.pow.auxHeld = true ∧ u.pow.sources = []

/-- 10 R319: memory stays in its canonical form over every step: addresses strictly rising, no zero byte listed.
The canonical form is the model's own (log entry 36). -/
def Obligations.MemoryStaysCanonical : Prop := ∀ s t : State, s.memWf → step s = .next t → t.memWf

/-- 18 R624, R625: no protected counter ever decreases, over every step of the block; each stays a 32-bit number; the write
count of their block only rises. -/
def Obligations.ProtectedCountersNeverDecrease : Prop :=
  ∀ s t : State, s.boot.counters.length = 5 → (∀ i, s.protectedCounter i < 2 ^ 32) → step s = .next t →
    t.boot.counters.length = 5 ∧ (∀ i, s.protectedCounter i ≤ t.protectedCounter i ∧ t.protectedCounter i < 2 ^ 32) ∧
      s.boot.counterWrites ≤ t.boot.counterWrites

end Claims
end

