-- ==== Sys2Proof/Laws/Checksum.lean ====
section
/-! SUPPORT. The residue checks of a K-group (05 R190): with the dropped parts the row and column sums agree with their
predictions exactly, so a K-group without a fault passes. -/

namespace Sys2Proof.Laws

open Sys2Proof.Machine

/-- Equal numbers are congruent. -/
theorem modEq_of_eq {a b : Int} (h : a = b) : a ≡ b [ZMOD checkPrime] := h ▸ Int.ModEq.rfl

/-- Powers of two depend on the exponent modulo 61. -/
theorem twoRes_add (e : Int) (d : Nat) : twoRes (e + d) ≡ twoRes e * 2 ^ d [ZMOD checkPrime] := by
  have hp : (2 : Int) ^ 61 ≡ 1 [ZMOD checkPrime] := by decide
  have hk : ∀ k : Nat, (2 : Int) ^ k ≡ 2 ^ (k % 61) [ZMOD checkPrime] := fun k => by
    conv_lhs => rw [← Nat.div_add_mod k 61, pow_add, pow_mul]
    simpa using (hp.pow (k / 61)).mul_right (2 ^ (k % 61))
  have he : ((e + d) % 61).toNat = ((e % 61).toNat + d) % 61 := by omega
  unfold twoRes
  rw [he, ← pow_add]
  exact (hk _).symm

/-- Residues multiply. -/
theorem res_mul (a b : Val) : (a.mul b).res ≡ a.res * b.res [ZMOD checkPrime] := by
  cases a with
  | nan => simp [Val.mul, Val.res]
  | inf n => cases b <;> simp only [Val.mul] <;> (try split) <;> simp [Val.res]
  | fin n m e =>
    cases b with
    | nan => simp [Val.mul, Val.res]
    | inf k => simp only [Val.mul]; split <;> simp [Val.res]
    | fin k l f =>
      have hs : signed (n != k) (m * l) = signed n m * signed k l := by cases n <;> cases k <;> simp [signed]
      have ht : twoRes (e + f) ≡ twoRes e * twoRes f [ZMOD checkPrime] := by
        have h1 := twoRes_add e (f % 61).toNat
        have h2 : twoRes (e + f) = twoRes (e + ((f % 61).toNat : Int)) := by
          unfold twoRes
          congr 2
          omega
        rw [h2]
        simpa [twoRes] using h1
      simp only [Val.mul, Val.res, hs]
      refine (Int.mod_modEq _ _).trans ?_
      refine Int.ModEq.trans ?_ ((Int.mod_modEq _ _).symm.mul (Int.mod_modEq _ _).symm)
      rw [show signed n m * twoRes e * (signed k l * twoRes f) = signed n m * signed k l * (twoRes e * twoRes f) by ring]
      exact ht.mul_left _

/-- A windowed product and its dropped part make up the product. -/
theorem window_res (l : Int) (v : Val) : (windowed l v).1 * twoRes l + droppedRes l v ≡ v.res [ZMOD checkPrime] := by
  cases v with
  | nan => simp [windowed, droppedRes, Val.res]
  | inf n => simp [windowed, droppedRes, Val.res]
  | fin n m e =>
    simp only [windowed, droppedRes, Val.res]
    refine Int.ModEq.trans ?_ (Int.mod_modEq _ _).symm
    split
    · rename_i h
      have h1 := twoRes_add l (e - l).toNat
      rw [show l + ((e - l).toNat : Int) = e by omega] at h1
      have hs : signed n (m * 2 ^ (e - l).toNat) = signed n m * 2 ^ (e - l).toNat := by cases n <;> simp [signed]
      simp only [hs, add_zero]
      rw [mul_assoc, mul_comm ((2 : Int) ^ _)]
      exact (h1.symm.mul_left _)
    · rename_i h
      have h1 := twoRes_add e (l - e).toNat
      rw [show e + ((l - e).toNat : Int) = l by omega] at h1
      have hs : signed n m = signed n (m / 2 ^ (l - e).toNat) * 2 ^ (l - e).toNat + signed n (m % 2 ^ (l - e).toNat) := by
        have hm : (m : Int) = (m / 2 ^ (l - e).toNat : Nat) * 2 ^ (l - e).toNat + (m % 2 ^ (l - e).toNat : Nat) := by
          exact_mod_cast (Nat.div_add_mod' m _).symm
        cases n <;> simp only [signed] <;> simp <;> push_cast at hm <;> linarith
      rw [hs, add_mul]
      refine Int.ModEq.add_right _ ?_
      rw [mul_assoc, mul_comm ((2 : Int) ^ _)]
      exact h1.mul_left _

/-- A product that is not finite, or is zero, has residue 0. -/
theorem res_skip (v : Val) (h : (v.isFin && !v.isZero) = false) : v.res = 0 := by
  cases v with
  | nan => rfl
  | inf n => rfl
  | fin n m e =>
    cases m with
    | zero => cases n <;> simp [Val.res, signed]
    | succ m => simp [Val.isFin, Val.isZero] at h

/-- The window sum of a list, as a sum. -/
theorem window_fold (l : Int) (vs : List Val) (a : Int × Bool) :
    (vs.foldl (fun (a : Int × Bool) v => let h := windowed l v; (a.1 + h.1, a.2 || h.2)) a).1 =
      a.1 + (vs.map fun v => (windowed l v).1).sum := by
  induction vs generalizing a with
  | nil => simp
  | cons v r ih => simp only [List.foldl_cons, ih, List.map_cons, List.sum_cons]; ring

/-- The array's residue of an element is the sum of the residues of its products, plus what a fault has added. -/
theorem arrayRes_sum (prods : List Val) (err : Int) :
    arrayRes prods err ≡ (prods.map Val.res).sum + err * twoRes (windowPos prods) [ZMOD checkPrime] := by
  have h1 : ∀ (l : Int) (vs : List Val),
      (vs.map fun v => (windowed l v).1).sum * twoRes l + (vs.map (droppedRes l)).sum ≡ (vs.map Val.res).sum [ZMOD checkPrime] := by
    intro l vs
    induction vs with
    | nil => simp
    | cons v r ih =>
      simp only [List.map_cons, List.sum_cons]
      have := (window_res l v).add ih
      refine Int.ModEq.trans (modEq_of_eq ?_) this
      ring
  have h2 : ((finiteProds prods).map Val.res).sum = (prods.map Val.res).sum := by
    unfold finiteProds
    induction prods with
    | nil => rfl
    | cons v r ih =>
      by_cases h : (v.isFin && !v.isZero) = true
      · simp [h, ih]
      · simp [h, ih, res_skip v (by simpa using h)]
  unfold arrayRes windowSum
  refine (Int.mod_modEq _ _).trans ?_
  rw [window_fold, ← h2]
  have := (h1 (windowPos prods) (finiteProds prods)).add_right (err * twoRes (windowPos prods))
  refine Int.ModEq.trans (modEq_of_eq ?_) this
  ring

/-- A sum of congruent terms. -/
theorem sum_modEq {α : Type} (f g : α → Int) (l : List α) (h : ∀ x, f x ≡ g x [ZMOD checkPrime]) :
    (l.map f).sum ≡ (l.map g).sum [ZMOD checkPrime] := by
  induction l with
  | nil => rfl
  | cons x r ih => simpa using (h x).add ih

/-- Two sums change places. -/
theorem sum_swap {α β : Type} (f : α → β → Int) (l : List α) (r : List β) :
    (l.map fun x => (r.map fun y => f x y).sum).sum = (r.map fun y => (l.map fun x => f x y).sum).sum := by
  induction l with
  | nil => simp
  | cons x t ih => simp [ih, List.sum_map_add]

/-- A K-group without a fault passes its checksum row and column (05 R190). -/
theorem checksum_agrees (rows cols ks : Nat) (a b : Nat → Nat → Val) :
    checksumDiffers rows cols ks a b (fun i j => (List.range ks).map fun k => (a i k).mul (b j k)) (fun _ _ => 0) = false := by
  have hel : ∀ i j, arrayRes ((List.range ks).map fun k => (a i k).mul (b j k)) 0 ≡
      ((List.range ks).map fun k => (a i k).res * (b j k).res).sum [ZMOD checkPrime] := by
    intro i j
    refine (arrayRes_sum _ _).trans ?_
    simp only [zero_mul, add_zero, List.map_map]
    exact sum_modEq _ _ _ fun k => res_mul _ _
  unfold checksumDiffers
  simp only [Bool.or_eq_false_iff, List.any_eq_false, bne_iff_ne, ne_eq, not_not]
  refine ⟨fun i _ => ?_, fun j _ => ?_⟩
  · refine (sum_modEq _ _ (List.range cols) fun j => hel i j).trans (modEq_of_eq ?_)
    rw [sum_swap]
    simp [List.sum_map_mul_left]
  · refine (sum_modEq _ _ (List.range rows) fun i => hel i j).trans (modEq_of_eq ?_)
    rw [sum_swap]
    simp [List.sum_map_mul_right]

/-- A K-group with no array fault passes both checks (05 R190, R191). -/
theorem mismatch_nil (s : State) (t p : Nat) (r : MmaRun) (f : Fmt) : s.mismatch t p r f [] = false := by
  have h : faultErr [] = fun _ _ => 0 := rfl
  simp only [State.mismatch, MmaRun.roundsApart, List.any_nil, Bool.or_false, h]
  exact checksum_agrees _ _ _ _ _

end Sys2Proof.Laws
end

