-- ==== Sys2Proof/Laws/State.lean ====
section
/-! SUPPORT. What each named update of the state leaves as it is, and what it writes: one lemma for each part of the
state, true by unfolding, so that no proof unfolds a record update. -/

namespace Sys2Proof.Laws
open Sys2Proof.Machine

variable (s : State)

/-! ### onTile -/

@[simp] theorem onTile_pending (t : Nat) (f : Tile → Tile) : (s.onTile t f).pending = s.pending := rfl
@[simp] theorem onTile_hubMover (t : Nat) (f : Tile → Tile) : (s.onTile t f).hubMover = s.hubMover := rfl
@[simp] theorem onTile_clk (t : Nat) (f : Tile → Tile) : (s.onTile t f).clk = s.clk := rfl
@[simp] theorem onTile_mem (t : Nat) (f : Tile → Tile) : (s.onTile t f).mem = s.mem := rfl
@[simp] theorem onTile_host (t : Nat) (f : Tile → Tile) : (s.onTile t f).host = s.host := rfl
@[simp] theorem onTile_work (t : Nat) (f : Tile → Tile) : (s.onTile t f).work = s.work := rfl
@[simp] theorem onTile_tel (t : Nat) (f : Tile → Tile) : (s.onTile t f).tel = s.tel := rfl
@[simp] theorem onTile_fab (t : Nat) (f : Tile → Tile) : (s.onTile t f).fab = s.fab := rfl
@[simp] theorem onTile_cas (t : Nat) (f : Tile → Tile) : (s.onTile t f).cas = s.cas := rfl
@[simp] theorem onTile_media (t : Nat) (f : Tile → Tile) : (s.onTile t f).media = s.media := rfl
@[simp] theorem onTile_resv (t : Nat) (f : Tile → Tile) : (s.onTile t f).resv = s.resv := rfl
@[simp] theorem onTile_pow (t : Nat) (f : Tile → Tile) : (s.onTile t f).pow = s.pow := rfl
@[simp] theorem onTile_boot (t : Nat) (f : Tile → Tile) : (s.onTile t f).boot = s.boot := rfl

/-! ### onPath -/

@[simp] theorem onPath_pending (t p : Nat) (f : Path → Path) : (s.onPath t p f).pending = s.pending := rfl
@[simp] theorem onPath_hubMover (t p : Nat) (f : Path → Path) : (s.onPath t p f).hubMover = s.hubMover := rfl
@[simp] theorem onPath_clk (t p : Nat) (f : Path → Path) : (s.onPath t p f).clk = s.clk := rfl
@[simp] theorem onPath_mem (t p : Nat) (f : Path → Path) : (s.onPath t p f).mem = s.mem := rfl
@[simp] theorem onPath_host (t p : Nat) (f : Path → Path) : (s.onPath t p f).host = s.host := rfl
@[simp] theorem onPath_work (t p : Nat) (f : Path → Path) : (s.onPath t p f).work = s.work := rfl
@[simp] theorem onPath_tel (t p : Nat) (f : Path → Path) : (s.onPath t p f).tel = s.tel := rfl
@[simp] theorem onPath_fab (t p : Nat) (f : Path → Path) : (s.onPath t p f).fab = s.fab := rfl
@[simp] theorem onPath_cas (t p : Nat) (f : Path → Path) : (s.onPath t p f).cas = s.cas := rfl
@[simp] theorem onPath_media (t p : Nat) (f : Path → Path) : (s.onPath t p f).media = s.media := rfl
@[simp] theorem onPath_resv (t p : Nat) (f : Path → Path) : (s.onPath t p f).resv = s.resv := rfl
@[simp] theorem onPath_pow (t p : Nat) (f : Path → Path) : (s.onPath t p f).pow = s.pow := rfl
@[simp] theorem onPath_boot (t p : Nat) (f : Path → Path) : (s.onPath t p f).boot = s.boot := rfl

/-! ### onCore -/

@[simp] theorem onCore_pending (t c : Nat) (f : Core → Core) : (s.onCore t c f).pending = s.pending := rfl
@[simp] theorem onCore_hubMover (t c : Nat) (f : Core → Core) : (s.onCore t c f).hubMover = s.hubMover := rfl
@[simp] theorem onCore_clk (t c : Nat) (f : Core → Core) : (s.onCore t c f).clk = s.clk := rfl
@[simp] theorem onCore_mem (t c : Nat) (f : Core → Core) : (s.onCore t c f).mem = s.mem := rfl
@[simp] theorem onCore_host (t c : Nat) (f : Core → Core) : (s.onCore t c f).host = s.host := rfl
@[simp] theorem onCore_work (t c : Nat) (f : Core → Core) : (s.onCore t c f).work = s.work := rfl
@[simp] theorem onCore_tel (t c : Nat) (f : Core → Core) : (s.onCore t c f).tel = s.tel := rfl
@[simp] theorem onCore_fab (t c : Nat) (f : Core → Core) : (s.onCore t c f).fab = s.fab := rfl
@[simp] theorem onCore_cas (t c : Nat) (f : Core → Core) : (s.onCore t c f).cas = s.cas := rfl
@[simp] theorem onCore_media (t c : Nat) (f : Core → Core) : (s.onCore t c f).media = s.media := rfl
@[simp] theorem onCore_resv (t c : Nat) (f : Core → Core) : (s.onCore t c f).resv = s.resv := rfl
@[simp] theorem onCore_pow (t c : Nat) (f : Core → Core) : (s.onCore t c f).pow = s.pow := rfl
@[simp] theorem onCore_boot (t c : Nat) (f : Core → Core) : (s.onCore t c f).boot = s.boot := rfl

/-! ### onEngine -/

@[simp] theorem onEngine_pending (t c : Nat) (f : Engine → Engine) : (s.onEngine t c f).pending = s.pending := rfl
@[simp] theorem onEngine_hubMover (t c : Nat) (f : Engine → Engine) : (s.onEngine t c f).hubMover = s.hubMover := rfl
@[simp] theorem onEngine_clk (t c : Nat) (f : Engine → Engine) : (s.onEngine t c f).clk = s.clk := rfl
@[simp] theorem onEngine_mem (t c : Nat) (f : Engine → Engine) : (s.onEngine t c f).mem = s.mem := rfl
@[simp] theorem onEngine_host (t c : Nat) (f : Engine → Engine) : (s.onEngine t c f).host = s.host := rfl
@[simp] theorem onEngine_work (t c : Nat) (f : Engine → Engine) : (s.onEngine t c f).work = s.work := rfl
@[simp] theorem onEngine_tel (t c : Nat) (f : Engine → Engine) : (s.onEngine t c f).tel = s.tel := rfl
@[simp] theorem onEngine_fab (t c : Nat) (f : Engine → Engine) : (s.onEngine t c f).fab = s.fab := rfl
@[simp] theorem onEngine_cas (t c : Nat) (f : Engine → Engine) : (s.onEngine t c f).cas = s.cas := rfl
@[simp] theorem onEngine_media (t c : Nat) (f : Engine → Engine) : (s.onEngine t c f).media = s.media := rfl
@[simp] theorem onEngine_resv (t c : Nat) (f : Engine → Engine) : (s.onEngine t c f).resv = s.resv := rfl
@[simp] theorem onEngine_pow (t c : Nat) (f : Engine → Engine) : (s.onEngine t c f).pow = s.pow := rfl
@[simp] theorem onEngine_boot (t c : Nat) (f : Engine → Engine) : (s.onEngine t c f).boot = s.boot := rfl

/-! ### onGov -/

@[simp] theorem onGov_pending (t : Nat) (f : Gov → Gov) : (s.onGov t f).pending = s.pending := rfl
@[simp] theorem onGov_hubMover (t : Nat) (f : Gov → Gov) : (s.onGov t f).hubMover = s.hubMover := rfl
@[simp] theorem onGov_clk (t : Nat) (f : Gov → Gov) : (s.onGov t f).clk = s.clk := rfl
@[simp] theorem onGov_mem (t : Nat) (f : Gov → Gov) : (s.onGov t f).mem = s.mem := rfl
@[simp] theorem onGov_host (t : Nat) (f : Gov → Gov) : (s.onGov t f).host = s.host := rfl
@[simp] theorem onGov_work (t : Nat) (f : Gov → Gov) : (s.onGov t f).work = s.work := rfl
@[simp] theorem onGov_tel (t : Nat) (f : Gov → Gov) : (s.onGov t f).tel = s.tel := rfl
@[simp] theorem onGov_fab (t : Nat) (f : Gov → Gov) : (s.onGov t f).fab = s.fab := rfl
@[simp] theorem onGov_cas (t : Nat) (f : Gov → Gov) : (s.onGov t f).cas = s.cas := rfl
@[simp] theorem onGov_media (t : Nat) (f : Gov → Gov) : (s.onGov t f).media = s.media := rfl
@[simp] theorem onGov_resv (t : Nat) (f : Gov → Gov) : (s.onGov t f).resv = s.resv := rfl
@[simp] theorem onGov_pow (t : Nat) (f : Gov → Gov) : (s.onGov t f).pow = s.pow := rfl
@[simp] theorem onGov_boot (t : Nat) (f : Gov → Gov) : (s.onGov t f).boot = s.boot := rfl

/-! ### onMg -/

@[simp] theorem onMg_pending (t : Nat) (f : MemGroup → MemGroup) : (s.onMg t f).pending = s.pending := rfl
@[simp] theorem onMg_hubMover (t : Nat) (f : MemGroup → MemGroup) : (s.onMg t f).hubMover = s.hubMover := rfl
@[simp] theorem onMg_clk (t : Nat) (f : MemGroup → MemGroup) : (s.onMg t f).clk = s.clk := rfl
@[simp] theorem onMg_mem (t : Nat) (f : MemGroup → MemGroup) : (s.onMg t f).mem = s.mem := rfl
@[simp] theorem onMg_host (t : Nat) (f : MemGroup → MemGroup) : (s.onMg t f).host = s.host := rfl
@[simp] theorem onMg_work (t : Nat) (f : MemGroup → MemGroup) : (s.onMg t f).work = s.work := rfl
@[simp] theorem onMg_tel (t : Nat) (f : MemGroup → MemGroup) : (s.onMg t f).tel = s.tel := rfl
@[simp] theorem onMg_fab (t : Nat) (f : MemGroup → MemGroup) : (s.onMg t f).fab = s.fab := rfl
@[simp] theorem onMg_cas (t : Nat) (f : MemGroup → MemGroup) : (s.onMg t f).cas = s.cas := rfl
@[simp] theorem onMg_media (t : Nat) (f : MemGroup → MemGroup) : (s.onMg t f).media = s.media := rfl
@[simp] theorem onMg_resv (t : Nat) (f : MemGroup → MemGroup) : (s.onMg t f).resv = s.resv := rfl
@[simp] theorem onMg_pow (t : Nat) (f : MemGroup → MemGroup) : (s.onMg t f).pow = s.pow := rfl
@[simp] theorem onMg_boot (t : Nat) (f : MemGroup → MemGroup) : (s.onMg t f).boot = s.boot := rfl

/-! ### onAtt -/

@[simp] theorem onAtt_pending (a : Nat) (f : Attachment → Attachment) : (s.onAtt a f).pending = s.pending := rfl
@[simp] theorem onAtt_tiles (a : Nat) (f : Attachment → Attachment) : (s.onAtt a f).tiles = s.tiles := rfl
@[simp] theorem onAtt_hubMover (a : Nat) (f : Attachment → Attachment) : (s.onAtt a f).hubMover = s.hubMover := rfl
@[simp] theorem onAtt_clk (a : Nat) (f : Attachment → Attachment) : (s.onAtt a f).clk = s.clk := rfl
@[simp] theorem onAtt_mem (a : Nat) (f : Attachment → Attachment) : (s.onAtt a f).mem = s.mem := rfl
@[simp] theorem onAtt_work (a : Nat) (f : Attachment → Attachment) : (s.onAtt a f).work = s.work := rfl
@[simp] theorem onAtt_tel (a : Nat) (f : Attachment → Attachment) : (s.onAtt a f).tel = s.tel := rfl
@[simp] theorem onAtt_fab (a : Nat) (f : Attachment → Attachment) : (s.onAtt a f).fab = s.fab := rfl
@[simp] theorem onAtt_cas (a : Nat) (f : Attachment → Attachment) : (s.onAtt a f).cas = s.cas := rfl
@[simp] theorem onAtt_media (a : Nat) (f : Attachment → Attachment) : (s.onAtt a f).media = s.media := rfl
@[simp] theorem onAtt_resv (a : Nat) (f : Attachment → Attachment) : (s.onAtt a f).resv = s.resv := rfl
@[simp] theorem onAtt_pow (a : Nat) (f : Attachment → Attachment) : (s.onAtt a f).pow = s.pow := rfl
@[simp] theorem onAtt_boot (a : Nat) (f : Attachment → Attachment) : (s.onAtt a f).boot = s.boot := rfl

/-! ### onRing -/

@[simp] theorem onRing_pending (a r : Nat) (f : Ring → Ring) : (s.onRing a r f).pending = s.pending := rfl
@[simp] theorem onRing_tiles (a r : Nat) (f : Ring → Ring) : (s.onRing a r f).tiles = s.tiles := rfl
@[simp] theorem onRing_hubMover (a r : Nat) (f : Ring → Ring) : (s.onRing a r f).hubMover = s.hubMover := rfl
@[simp] theorem onRing_clk (a r : Nat) (f : Ring → Ring) : (s.onRing a r f).clk = s.clk := rfl
@[simp] theorem onRing_mem (a r : Nat) (f : Ring → Ring) : (s.onRing a r f).mem = s.mem := rfl
@[simp] theorem onRing_work (a r : Nat) (f : Ring → Ring) : (s.onRing a r f).work = s.work := rfl
@[simp] theorem onRing_tel (a r : Nat) (f : Ring → Ring) : (s.onRing a r f).tel = s.tel := rfl
@[simp] theorem onRing_fab (a r : Nat) (f : Ring → Ring) : (s.onRing a r f).fab = s.fab := rfl
@[simp] theorem onRing_cas (a r : Nat) (f : Ring → Ring) : (s.onRing a r f).cas = s.cas := rfl
@[simp] theorem onRing_media (a r : Nat) (f : Ring → Ring) : (s.onRing a r f).media = s.media := rfl
@[simp] theorem onRing_resv (a r : Nat) (f : Ring → Ring) : (s.onRing a r f).resv = s.resv := rfl
@[simp] theorem onRing_pow (a r : Nat) (f : Ring → Ring) : (s.onRing a r f).pow = s.pow := rfl
@[simp] theorem onRing_boot (a r : Nat) (f : Ring → Ring) : (s.onRing a r f).boot = s.boot := rfl

/-! ### onTenant -/

@[simp] theorem onTenant_pending (i : Nat) (f : Tenant → Tenant) : (s.onTenant i f).pending = s.pending := rfl
@[simp] theorem onTenant_tiles (i : Nat) (f : Tenant → Tenant) : (s.onTenant i f).tiles = s.tiles := rfl
@[simp] theorem onTenant_hubMover (i : Nat) (f : Tenant → Tenant) : (s.onTenant i f).hubMover = s.hubMover := rfl
@[simp] theorem onTenant_clk (i : Nat) (f : Tenant → Tenant) : (s.onTenant i f).clk = s.clk := rfl
@[simp] theorem onTenant_mem (i : Nat) (f : Tenant → Tenant) : (s.onTenant i f).mem = s.mem := rfl
@[simp] theorem onTenant_work (i : Nat) (f : Tenant → Tenant) : (s.onTenant i f).work = s.work := rfl
@[simp] theorem onTenant_tel (i : Nat) (f : Tenant → Tenant) : (s.onTenant i f).tel = s.tel := rfl
@[simp] theorem onTenant_fab (i : Nat) (f : Tenant → Tenant) : (s.onTenant i f).fab = s.fab := rfl
@[simp] theorem onTenant_cas (i : Nat) (f : Tenant → Tenant) : (s.onTenant i f).cas = s.cas := rfl
@[simp] theorem onTenant_media (i : Nat) (f : Tenant → Tenant) : (s.onTenant i f).media = s.media := rfl
@[simp] theorem onTenant_resv (i : Nat) (f : Tenant → Tenant) : (s.onTenant i f).resv = s.resv := rfl
@[simp] theorem onTenant_pow (i : Nat) (f : Tenant → Tenant) : (s.onTenant i f).pow = s.pow := rfl
@[simp] theorem onTenant_boot (i : Nat) (f : Tenant → Tenant) : (s.onTenant i f).boot = s.boot := rfl

/-! ### onJob -/

@[simp] theorem onJob_pending (h : Nat) (f : Job → Job) : (s.onJob h f).pending = s.pending := rfl
@[simp] theorem onJob_tiles (h : Nat) (f : Job → Job) : (s.onJob h f).tiles = s.tiles := rfl
@[simp] theorem onJob_hubMover (h : Nat) (f : Job → Job) : (s.onJob h f).hubMover = s.hubMover := rfl
@[simp] theorem onJob_clk (h : Nat) (f : Job → Job) : (s.onJob h f).clk = s.clk := rfl
@[simp] theorem onJob_mem (h : Nat) (f : Job → Job) : (s.onJob h f).mem = s.mem := rfl
@[simp] theorem onJob_host (h : Nat) (f : Job → Job) : (s.onJob h f).host = s.host := rfl
@[simp] theorem onJob_tel (h : Nat) (f : Job → Job) : (s.onJob h f).tel = s.tel := rfl
@[simp] theorem onJob_fab (h : Nat) (f : Job → Job) : (s.onJob h f).fab = s.fab := rfl
@[simp] theorem onJob_cas (h : Nat) (f : Job → Job) : (s.onJob h f).cas = s.cas := rfl
@[simp] theorem onJob_media (h : Nat) (f : Job → Job) : (s.onJob h f).media = s.media := rfl
@[simp] theorem onJob_resv (h : Nat) (f : Job → Job) : (s.onJob h f).resv = s.resv := rfl
@[simp] theorem onJob_pow (h : Nat) (f : Job → Job) : (s.onJob h f).pow = s.pow := rfl
@[simp] theorem onJob_boot (h : Nat) (f : Job → Job) : (s.onJob h f).boot = s.boot := rfl

/-! ### onKernel -/

@[simp] theorem onKernel_pending (k : Nat) (f : Kernel → Kernel) : (s.onKernel k f).pending = s.pending := rfl
@[simp] theorem onKernel_tiles (k : Nat) (f : Kernel → Kernel) : (s.onKernel k f).tiles = s.tiles := rfl
@[simp] theorem onKernel_hubMover (k : Nat) (f : Kernel → Kernel) : (s.onKernel k f).hubMover = s.hubMover := rfl
@[simp] theorem onKernel_clk (k : Nat) (f : Kernel → Kernel) : (s.onKernel k f).clk = s.clk := rfl
@[simp] theorem onKernel_mem (k : Nat) (f : Kernel → Kernel) : (s.onKernel k f).mem = s.mem := rfl
@[simp] theorem onKernel_host (k : Nat) (f : Kernel → Kernel) : (s.onKernel k f).host = s.host := rfl
@[simp] theorem onKernel_tel (k : Nat) (f : Kernel → Kernel) : (s.onKernel k f).tel = s.tel := rfl
@[simp] theorem onKernel_fab (k : Nat) (f : Kernel → Kernel) : (s.onKernel k f).fab = s.fab := rfl
@[simp] theorem onKernel_cas (k : Nat) (f : Kernel → Kernel) : (s.onKernel k f).cas = s.cas := rfl
@[simp] theorem onKernel_media (k : Nat) (f : Kernel → Kernel) : (s.onKernel k f).media = s.media := rfl
@[simp] theorem onKernel_resv (k : Nat) (f : Kernel → Kernel) : (s.onKernel k f).resv = s.resv := rfl
@[simp] theorem onKernel_pow (k : Nat) (f : Kernel → Kernel) : (s.onKernel k f).pow = s.pow := rfl
@[simp] theorem onKernel_boot (k : Nat) (f : Kernel → Kernel) : (s.onKernel k f).boot = s.boot := rfl

/-! ### onPort -/

@[simp] theorem onPort_pending (i : Nat) (f : Port → Port) : (s.onPort i f).pending = s.pending := rfl
@[simp] theorem onPort_tiles (i : Nat) (f : Port → Port) : (s.onPort i f).tiles = s.tiles := rfl
@[simp] theorem onPort_hubMover (i : Nat) (f : Port → Port) : (s.onPort i f).hubMover = s.hubMover := rfl
@[simp] theorem onPort_clk (i : Nat) (f : Port → Port) : (s.onPort i f).clk = s.clk := rfl
@[simp] theorem onPort_mem (i : Nat) (f : Port → Port) : (s.onPort i f).mem = s.mem := rfl
@[simp] theorem onPort_host (i : Nat) (f : Port → Port) : (s.onPort i f).host = s.host := rfl
@[simp] theorem onPort_work (i : Nat) (f : Port → Port) : (s.onPort i f).work = s.work := rfl
@[simp] theorem onPort_tel (i : Nat) (f : Port → Port) : (s.onPort i f).tel = s.tel := rfl
@[simp] theorem onPort_cas (i : Nat) (f : Port → Port) : (s.onPort i f).cas = s.cas := rfl
@[simp] theorem onPort_media (i : Nat) (f : Port → Port) : (s.onPort i f).media = s.media := rfl
@[simp] theorem onPort_resv (i : Nat) (f : Port → Port) : (s.onPort i f).resv = s.resv := rfl
@[simp] theorem onPort_pow (i : Nat) (f : Port → Port) : (s.onPort i f).pow = s.pow := rfl
@[simp] theorem onPort_boot (i : Nat) (f : Port → Port) : (s.onPort i f).boot = s.boot := rfl

/-! ### put -/

@[simp] theorem put_pending (a : Nat) (bs : Bytes) : (s.put a bs).pending = s.pending := rfl
@[simp] theorem put_tiles (a : Nat) (bs : Bytes) : (s.put a bs).tiles = s.tiles := rfl
@[simp] theorem put_hubMover (a : Nat) (bs : Bytes) : (s.put a bs).hubMover = s.hubMover := rfl
@[simp] theorem put_clk (a : Nat) (bs : Bytes) : (s.put a bs).clk = s.clk := rfl
@[simp] theorem put_host (a : Nat) (bs : Bytes) : (s.put a bs).host = s.host := rfl
@[simp] theorem put_work (a : Nat) (bs : Bytes) : (s.put a bs).work = s.work := rfl
@[simp] theorem put_tel (a : Nat) (bs : Bytes) : (s.put a bs).tel = s.tel := rfl
@[simp] theorem put_fab (a : Nat) (bs : Bytes) : (s.put a bs).fab = s.fab := rfl
@[simp] theorem put_cas (a : Nat) (bs : Bytes) : (s.put a bs).cas = s.cas := rfl
@[simp] theorem put_media (a : Nat) (bs : Bytes) : (s.put a bs).media = s.media := rfl
@[simp] theorem put_resv (a : Nat) (bs : Bytes) : (s.put a bs).resv = s.resv := rfl
@[simp] theorem put_pow (a : Nat) (bs : Bytes) : (s.put a bs).pow = s.pow := rfl
@[simp] theorem put_boot (a : Nat) (bs : Bytes) : (s.put a bs).boot = s.boot := rfl

/-! ### setLineErr -/

@[simp] theorem setLineErr_pending (l : List (Nat × LineErr)) : (s.setLineErr l).pending = s.pending := rfl
@[simp] theorem setLineErr_tiles (l : List (Nat × LineErr)) : (s.setLineErr l).tiles = s.tiles := rfl
@[simp] theorem setLineErr_hubMover (l : List (Nat × LineErr)) : (s.setLineErr l).hubMover = s.hubMover := rfl
@[simp] theorem setLineErr_clk (l : List (Nat × LineErr)) : (s.setLineErr l).clk = s.clk := rfl
@[simp] theorem setLineErr_host (l : List (Nat × LineErr)) : (s.setLineErr l).host = s.host := rfl
@[simp] theorem setLineErr_work (l : List (Nat × LineErr)) : (s.setLineErr l).work = s.work := rfl
@[simp] theorem setLineErr_tel (l : List (Nat × LineErr)) : (s.setLineErr l).tel = s.tel := rfl
@[simp] theorem setLineErr_fab (l : List (Nat × LineErr)) : (s.setLineErr l).fab = s.fab := rfl
@[simp] theorem setLineErr_cas (l : List (Nat × LineErr)) : (s.setLineErr l).cas = s.cas := rfl
@[simp] theorem setLineErr_media (l : List (Nat × LineErr)) : (s.setLineErr l).media = s.media := rfl
@[simp] theorem setLineErr_resv (l : List (Nat × LineErr)) : (s.setLineErr l).resv = s.resv := rfl
@[simp] theorem setLineErr_pow (l : List (Nat × LineErr)) : (s.setLineErr l).pow = s.pow := rfl
@[simp] theorem setLineErr_boot (l : List (Nat × LineErr)) : (s.setLineErr l).boot = s.boot := rfl

/-! ### setWordErr -/

@[simp] theorem setWordErr_pending (l : List (Nat × WordErr)) : (s.setWordErr l).pending = s.pending := rfl
@[simp] theorem setWordErr_tiles (l : List (Nat × WordErr)) : (s.setWordErr l).tiles = s.tiles := rfl
@[simp] theorem setWordErr_hubMover (l : List (Nat × WordErr)) : (s.setWordErr l).hubMover = s.hubMover := rfl
@[simp] theorem setWordErr_clk (l : List (Nat × WordErr)) : (s.setWordErr l).clk = s.clk := rfl
@[simp] theorem setWordErr_host (l : List (Nat × WordErr)) : (s.setWordErr l).host = s.host := rfl
@[simp] theorem setWordErr_work (l : List (Nat × WordErr)) : (s.setWordErr l).work = s.work := rfl
@[simp] theorem setWordErr_tel (l : List (Nat × WordErr)) : (s.setWordErr l).tel = s.tel := rfl
@[simp] theorem setWordErr_fab (l : List (Nat × WordErr)) : (s.setWordErr l).fab = s.fab := rfl
@[simp] theorem setWordErr_cas (l : List (Nat × WordErr)) : (s.setWordErr l).cas = s.cas := rfl
@[simp] theorem setWordErr_media (l : List (Nat × WordErr)) : (s.setWordErr l).media = s.media := rfl
@[simp] theorem setWordErr_resv (l : List (Nat × WordErr)) : (s.setWordErr l).resv = s.resv := rfl
@[simp] theorem setWordErr_pow (l : List (Nat × WordErr)) : (s.setWordErr l).pow = s.pow := rfl
@[simp] theorem setWordErr_boot (l : List (Nat × WordErr)) : (s.setWordErr l).boot = s.boot := rfl

/-! ### cleanWords -/

@[simp] theorem cleanWords_pending (a n : Nat) : (s.cleanWords a n).pending = s.pending := rfl
@[simp] theorem cleanWords_tiles (a n : Nat) : (s.cleanWords a n).tiles = s.tiles := rfl
@[simp] theorem cleanWords_hubMover (a n : Nat) : (s.cleanWords a n).hubMover = s.hubMover := rfl
@[simp] theorem cleanWords_clk (a n : Nat) : (s.cleanWords a n).clk = s.clk := rfl
@[simp] theorem cleanWords_host (a n : Nat) : (s.cleanWords a n).host = s.host := rfl
@[simp] theorem cleanWords_work (a n : Nat) : (s.cleanWords a n).work = s.work := rfl
@[simp] theorem cleanWords_tel (a n : Nat) : (s.cleanWords a n).tel = s.tel := rfl
@[simp] theorem cleanWords_fab (a n : Nat) : (s.cleanWords a n).fab = s.fab := rfl
@[simp] theorem cleanWords_cas (a n : Nat) : (s.cleanWords a n).cas = s.cas := rfl
@[simp] theorem cleanWords_media (a n : Nat) : (s.cleanWords a n).media = s.media := rfl
@[simp] theorem cleanWords_resv (a n : Nat) : (s.cleanWords a n).resv = s.resv := rfl
@[simp] theorem cleanWords_pow (a n : Nat) : (s.cleanWords a n).pow = s.pow := rfl
@[simp] theorem cleanWords_boot (a n : Nat) : (s.cleanWords a n).boot = s.boot := rfl

/-! ### zeroRange -/

@[simp] theorem zeroRange_pending (a n : Nat) : (s.zeroRange a n).pending = s.pending := rfl
@[simp] theorem zeroRange_tiles (a n : Nat) : (s.zeroRange a n).tiles = s.tiles := rfl
@[simp] theorem zeroRange_hubMover (a n : Nat) : (s.zeroRange a n).hubMover = s.hubMover := rfl
@[simp] theorem zeroRange_clk (a n : Nat) : (s.zeroRange a n).clk = s.clk := rfl
@[simp] theorem zeroRange_host (a n : Nat) : (s.zeroRange a n).host = s.host := rfl
@[simp] theorem zeroRange_work (a n : Nat) : (s.zeroRange a n).work = s.work := rfl
@[simp] theorem zeroRange_tel (a n : Nat) : (s.zeroRange a n).tel = s.tel := rfl
@[simp] theorem zeroRange_fab (a n : Nat) : (s.zeroRange a n).fab = s.fab := rfl
@[simp] theorem zeroRange_cas (a n : Nat) : (s.zeroRange a n).cas = s.cas := rfl
@[simp] theorem zeroRange_media (a n : Nat) : (s.zeroRange a n).media = s.media := rfl
@[simp] theorem zeroRange_resv (a n : Nat) : (s.zeroRange a n).resv = s.resv := rfl
@[simp] theorem zeroRange_pow (a n : Nat) : (s.zeroRange a n).pow = s.pow := rfl
@[simp] theorem zeroRange_boot (a n : Nat) : (s.zeroRange a n).boot = s.boot := rfl

/-! ### trim -/

@[simp] theorem trim_pending (a n : Nat) : (s.trim a n).pending = s.pending := rfl
@[simp] theorem trim_tiles (a n : Nat) : (s.trim a n).tiles = s.tiles := rfl
@[simp] theorem trim_hubMover (a n : Nat) : (s.trim a n).hubMover = s.hubMover := rfl
@[simp] theorem trim_clk (a n : Nat) : (s.trim a n).clk = s.clk := rfl
@[simp] theorem trim_host (a n : Nat) : (s.trim a n).host = s.host := rfl
@[simp] theorem trim_work (a n : Nat) : (s.trim a n).work = s.work := rfl
@[simp] theorem trim_tel (a n : Nat) : (s.trim a n).tel = s.tel := rfl
@[simp] theorem trim_fab (a n : Nat) : (s.trim a n).fab = s.fab := rfl
@[simp] theorem trim_cas (a n : Nat) : (s.trim a n).cas = s.cas := rfl
@[simp] theorem trim_media (a n : Nat) : (s.trim a n).media = s.media := rfl
@[simp] theorem trim_resv (a n : Nat) : (s.trim a n).resv = s.resv := rfl
@[simp] theorem trim_pow (a n : Nat) : (s.trim a n).pow = s.pow := rfl
@[simp] theorem trim_boot (a n : Nat) : (s.trim a n).boot = s.boot := rfl

/-! ### msi -/

@[simp] theorem msi_pending (a v : Nat) : (s.msi a v).pending = s.pending := rfl
@[simp] theorem msi_tiles (a v : Nat) : (s.msi a v).tiles = s.tiles := rfl
@[simp] theorem msi_hubMover (a v : Nat) : (s.msi a v).hubMover = s.hubMover := rfl
@[simp] theorem msi_clk (a v : Nat) : (s.msi a v).clk = s.clk := rfl
@[simp] theorem msi_mem (a v : Nat) : (s.msi a v).mem = s.mem := rfl
@[simp] theorem msi_work (a v : Nat) : (s.msi a v).work = s.work := rfl
@[simp] theorem msi_tel (a v : Nat) : (s.msi a v).tel = s.tel := rfl
@[simp] theorem msi_fab (a v : Nat) : (s.msi a v).fab = s.fab := rfl
@[simp] theorem msi_cas (a v : Nat) : (s.msi a v).cas = s.cas := rfl
@[simp] theorem msi_media (a v : Nat) : (s.msi a v).media = s.media := rfl
@[simp] theorem msi_resv (a v : Nat) : (s.msi a v).resv = s.resv := rfl
@[simp] theorem msi_pow (a v : Nat) : (s.msi a v).pow = s.pow := rfl
@[simp] theorem msi_boot (a v : Nat) : (s.msi a v).boot = s.boot := rfl

/-! ### hostRead -/

@[simp] theorem hostRead_pending (b : Bytes) (q : Bool) : (s.hostRead b q).pending = s.pending := rfl
@[simp] theorem hostRead_tiles (b : Bytes) (q : Bool) : (s.hostRead b q).tiles = s.tiles := rfl
@[simp] theorem hostRead_hubMover (b : Bytes) (q : Bool) : (s.hostRead b q).hubMover = s.hubMover := rfl
@[simp] theorem hostRead_clk (b : Bytes) (q : Bool) : (s.hostRead b q).clk = s.clk := rfl
@[simp] theorem hostRead_mem (b : Bytes) (q : Bool) : (s.hostRead b q).mem = s.mem := rfl
@[simp] theorem hostRead_work (b : Bytes) (q : Bool) : (s.hostRead b q).work = s.work := rfl
@[simp] theorem hostRead_tel (b : Bytes) (q : Bool) : (s.hostRead b q).tel = s.tel := rfl
@[simp] theorem hostRead_fab (b : Bytes) (q : Bool) : (s.hostRead b q).fab = s.fab := rfl
@[simp] theorem hostRead_cas (b : Bytes) (q : Bool) : (s.hostRead b q).cas = s.cas := rfl
@[simp] theorem hostRead_media (b : Bytes) (q : Bool) : (s.hostRead b q).media = s.media := rfl
@[simp] theorem hostRead_resv (b : Bytes) (q : Bool) : (s.hostRead b q).resv = s.resv := rfl
@[simp] theorem hostRead_pow (b : Bytes) (q : Bool) : (s.hostRead b q).pow = s.pow := rfl
@[simp] theorem hostRead_boot (b : Bytes) (q : Bool) : (s.hostRead b q).boot = s.boot := rfl

/-! ### popTaken -/

@[simp] theorem popTaken_pending (h : Head) (a r : Nat) : (s.popTaken h a r).pending = s.pending := by
  unfold State.popTaken; split <;> rfl
@[simp] theorem popTaken_tiles (h : Head) (a r : Nat) : (s.popTaken h a r).tiles = s.tiles := by
  unfold State.popTaken; split <;> rfl
@[simp] theorem popTaken_hubMover (h : Head) (a r : Nat) : (s.popTaken h a r).hubMover = s.hubMover := by
  unfold State.popTaken; split <;> rfl
@[simp] theorem popTaken_clk (h : Head) (a r : Nat) : (s.popTaken h a r).clk = s.clk := by
  unfold State.popTaken; split <;> rfl
@[simp] theorem popTaken_mem (h : Head) (a r : Nat) : (s.popTaken h a r).mem = s.mem := by
  unfold State.popTaken; split <;> rfl
@[simp] theorem popTaken_work (h : Head) (a r : Nat) : (s.popTaken h a r).work = s.work := by
  unfold State.popTaken; split <;> rfl
@[simp] theorem popTaken_tel (h : Head) (a r : Nat) : (s.popTaken h a r).tel = s.tel := by
  unfold State.popTaken; split <;> rfl
@[simp] theorem popTaken_fab (h : Head) (a r : Nat) : (s.popTaken h a r).fab = s.fab := by
  unfold State.popTaken; split <;> rfl
@[simp] theorem popTaken_cas (h : Head) (a r : Nat) : (s.popTaken h a r).cas = s.cas := by
  unfold State.popTaken; split <;> rfl
@[simp] theorem popTaken_media (h : Head) (a r : Nat) : (s.popTaken h a r).media = s.media := by
  unfold State.popTaken; split <;> rfl
@[simp] theorem popTaken_resv (h : Head) (a r : Nat) : (s.popTaken h a r).resv = s.resv := by
  unfold State.popTaken; split <;> rfl
@[simp] theorem popTaken_pow (h : Head) (a r : Nat) : (s.popTaken h a r).pow = s.pow := by
  unfold State.popTaken; split <;> rfl
@[simp] theorem popTaken_boot (h : Head) (a r : Nat) : (s.popTaken h a r).boot = s.boot := by
  unfold State.popTaken; split <;> rfl

/-! ### event -/

@[simp] theorem event_pending (c t q r a l : Nat) : (s.event c t q r a l).pending = s.pending := rfl
@[simp] theorem event_tiles (c t q r a l : Nat) : (s.event c t q r a l).tiles = s.tiles := rfl
@[simp] theorem event_hubMover (c t q r a l : Nat) : (s.event c t q r a l).hubMover = s.hubMover := rfl
@[simp] theorem event_clk (c t q r a l : Nat) : (s.event c t q r a l).clk = s.clk := rfl
@[simp] theorem event_mem (c t q r a l : Nat) : (s.event c t q r a l).mem = s.mem := rfl
@[simp] theorem event_host (c t q r a l : Nat) : (s.event c t q r a l).host = s.host := rfl
@[simp] theorem event_work (c t q r a l : Nat) : (s.event c t q r a l).work = s.work := rfl
@[simp] theorem event_fab (c t q r a l : Nat) : (s.event c t q r a l).fab = s.fab := rfl
@[simp] theorem event_cas (c t q r a l : Nat) : (s.event c t q r a l).cas = s.cas := rfl
@[simp] theorem event_media (c t q r a l : Nat) : (s.event c t q r a l).media = s.media := rfl
@[simp] theorem event_resv (c t q r a l : Nat) : (s.event c t q r a l).resv = s.resv := rfl
@[simp] theorem event_pow (c t q r a l : Nat) : (s.event c t q r a l).pow = s.pow := rfl
@[simp] theorem event_boot (c t q r a l : Nat) : (s.event c t q r a l).boot = s.boot := rfl

/-! ### What the updates write -/

@[simp] theorem onTile_tiles (t : Nat) (f : Tile → Tile) : (s.onTile t f).tiles = modAt s.tiles t f := rfl
@[simp] theorem onAtt_atts (a : Nat) (f : Attachment → Attachment) : (s.onAtt a f).host.atts = modAt s.host.atts a f := rfl
@[simp] theorem onAtt_running (a : Nat) (f : Attachment → Attachment) : (s.onAtt a f).host.running = s.host.running := rfl
@[simp] theorem onAtt_tenants (a : Nat) (f : Attachment → Attachment) : (s.onAtt a f).host.tenants = s.host.tenants := rfl
@[simp] theorem onRing_running (a r : Nat) (f : Ring → Ring) : (s.onRing a r f).host.running = s.host.running := rfl
@[simp] theorem onRing_tenants (a r : Nat) (f : Ring → Ring) : (s.onRing a r f).host.tenants = s.host.tenants := rfl
@[simp] theorem onTenant_atts (i : Nat) (f : Tenant → Tenant) : (s.onTenant i f).host.atts = s.host.atts := rfl
@[simp] theorem onTenant_running (i : Nat) (f : Tenant → Tenant) : (s.onTenant i f).host.running = s.host.running := rfl
@[simp] theorem onJob_kernels (h : Nat) (f : Job → Job) : (s.onJob h f).work.kernels = s.work.kernels := rfl
@[simp] theorem onKernel_jobs (k : Nat) (f : Kernel → Kernel) : (s.onKernel k f).work.jobs = s.work.jobs := rfl
@[simp] theorem onPort_ports (i : Nat) (f : Port → Port) : (s.onPort i f).fab.ports = modAt s.fab.ports i f := rfl
@[simp] theorem put_cells (a : Nat) (bs : Bytes) : (s.put a bs).mem.cells = sput 0 s.mem.cells a bs := rfl
@[simp] theorem setLineErr_cells (l : List (Nat × LineErr)) : (s.setLineErr l).mem.cells = s.mem.cells := rfl
@[simp] theorem setWordErr_cells (l : List (Nat × WordErr)) : (s.setWordErr l).mem.cells = s.mem.cells := rfl
@[simp] theorem hostRead_data (b : Bytes) (q : Bool) : (s.hostRead b q).host.readData = b := rfl
@[simp] theorem event_serial (c t q r a l : Nat) :
    (s.event c t q r a l).tel.eventSerial = s.tel.eventSerial + 1 := rfl

end Sys2Proof.Laws
end

