-- ==== Sys2Proof/Laws/Memory.lean ====
section
/-! SUPPORT. Sparse tables: what a read gives after a write, and that every operation keeps the canonical form; the
memory operations of Ops say the same of the module's memory. -/

namespace Sys2Proof.Laws
open Sys2Proof.Machine

variable {α : Type}

theorem sget_append (z : α) (a b : List (Nat × α)) (j : Nat) (h : ∀ e ∈ a, e.1 ≠ j) : sget z (a ++ b) j = sget z b j := by
  induction a with
  | nil => rfl
  | cons e r ih =>
    simp only [List.cons_append, sget]
    rw [if_neg (h e (by simp))]
    exact ih fun x hx => h x (by simp [hx])

theorem sget_append_of_sget (z : α) (a b : List (Nat × α)) (j : Nat) (h : ∀ e ∈ b, e.1 ≠ j) :
    sget z (a ++ b) j = sget z a j := by
  induction a with
  | nil =>
    have := sget_append z b [] j h
    simpa [sget] using this
  | cons e r ih => simp only [List.cons_append, sget, ih]

theorem sget_filter (z : α) (m : List (Nat × α)) (j : Nat) (q : Nat × α → Bool) (h : ∀ v, q (j, v) = true) :
    sget z (m.filter q) j = sget z m j := by
  induction m with
  | nil => rfl
  | cons e r ih =>
    obtain ⟨k, v⟩ := e
    by_cases hk : k = j
    · subst hk; simp [List.filter, h v, sget]
    · cases hq : q (k, v) <;> simp [List.filter, hq, sget, hk, ih]

variable [DecidableEq α]

theorem listed_keys (z : α) (k : Nat) (vs : List α) : ∀ e ∈ listed z k vs, k ≤ e.1 ∧ e.1 < k + vs.length := by
  induction vs generalizing k with
  | nil => simp [listed]
  | cons v r ih =>
    intro e he
    simp only [listed] at he
    split at he
    · have := ih (k + 1) e he; simp; omega
    · rcases List.mem_cons.1 he with rfl | he
      · simp
      · have := ih (k + 1) e he; simp; omega

theorem sget_listed (z : α) (k : Nat) (vs : List α) (i : Nat) (h : i < vs.length) :
    sget z (listed z k vs) (k + i) = vs.getD i z := by
  induction vs generalizing k i with
  | nil => simp at h
  | cons v r ih =>
    cases i with
    | zero =>
      simp only [listed]
      split
      · rename_i hv
        have : sget z (listed z (k + 1) r) k = z := by
          have := sget_append z (listed z (k + 1) r) [] k (fun e he => by have := listed_keys z (k + 1) r e he; omega)
          simpa [sget] using this
        simp [this, hv]
      · simp [sget]
    | succ i =>
      have hi : i < r.length := by simpa using h
      have := ih (k + 1) i hi
      have e : k + 1 + i = k + (i + 1) := by omega
      rw [e] at this
      simp only [listed]
      split
      · simpa using this
      · simp only [sget]; rw [if_neg (by omega)]; simpa using this

/-- A read after a write of a run of keys: the new values there, the old ones elsewhere. -/
theorem sget_sput (z : α) (m : List (Nat × α)) (k : Nat) (vs : List α) (j : Nat) :
    sget z (sput z m k vs) j = if k ≤ j ∧ j < k + vs.length then vs.getD (j - k) z else sget z m j := by
  unfold sput
  by_cases h1 : j < k
  · rw [if_neg (by omega), ← List.append_assoc, sget_append_of_sget, sget_append_of_sget, sget_filter]
    · simp [h1]
    · intro e he; have := listed_keys z k vs e he; omega
    · intro e he; simp at he; omega
  · by_cases h2 : j < k + vs.length
    · rw [if_pos (by omega), sget_append, sget_append_of_sget]
      · have := sget_listed z k vs (j - k) (by omega)
        rwa [show k + (j - k) = j by omega] at this
      · intro e he; simp at he; omega
      · intro e he; simp at he; omega
    · rw [if_neg (by omega), sget_append, sget_append, sget_filter]
      · simp; omega
      · intro e he; have := listed_keys z k vs e he; omega
      · intro e he; simp at he; omega

theorem sgets_sput_same (z : α) (m : List (Nat × α)) (k : Nat) (vs : List α) : sgets z (sput z m k vs) k vs.length = vs := by
  apply List.ext_getElem?
  intro i
  simp only [sgets, List.getElem?_map]
  by_cases h : i < vs.length
  · rw [List.getElem?_range h]
    simp [sget_sput, h]
  · simp [List.getElem?_eq_none (Nat.le_of_not_lt h)]; omega

theorem sget_sset (z : α) (m : List (Nat × α)) (k : Nat) (v : α) (j : Nat) :
    sget z (sset z m k v) j = if j = k then v else sget z m j := by
  rw [sset, sget_sput]
  by_cases h : j = k
  · subst h; simp
  · rw [if_neg h, if_neg]; simp; omega

/-! ### The canonical form -/

theorem swfFrom_mono (z : α) (lo lo' : Nat) (m : List (Nat × α)) (h : lo' ≤ lo) (w : swfFrom z lo m = true) :
    swfFrom z lo' m = true := by
  cases m with
  | nil => rfl
  | cons e r => obtain ⟨k, v⟩ := e; simp [swfFrom] at w ⊢; exact ⟨⟨by omega, w.1.2⟩, w.2⟩

theorem swfFrom_filter (z : α) (lo : Nat) (m : List (Nat × α)) (q : Nat × α → Bool) (w : swfFrom z lo m = true) :
    swfFrom z lo (m.filter q) = true := by
  induction m generalizing lo with
  | nil => rfl
  | cons e r ih =>
    obtain ⟨k, v⟩ := e
    simp only [swfFrom, Bool.and_eq_true, decide_eq_true_eq] at w
    cases hq : q (k, v)
    · simp only [List.filter, hq]
      exact swfFrom_mono z (k + 1) lo _ (by omega) (ih (k + 1) w.2)
    · simp only [List.filter, hq, swfFrom, Bool.and_eq_true, decide_eq_true_eq]
      exact ⟨w.1, ih (k + 1) w.2⟩

theorem swfFrom_append (z : α) (lo mid : Nat) (a b : List (Nat × α)) (wa : swfFrom z lo a = true)
    (h : ∀ e ∈ a, e.1 < mid) (hl : lo ≤ mid) (wb : swfFrom z mid b = true) : swfFrom z lo (a ++ b) = true := by
  induction a generalizing lo with
  | nil => exact swfFrom_mono z mid lo b hl wb
  | cons e r ih =>
    obtain ⟨k, v⟩ := e
    simp only [swfFrom, Bool.and_eq_true, decide_eq_true_eq] at wa
    simp only [List.cons_append, swfFrom, Bool.and_eq_true, decide_eq_true_eq]
    have hk : k < mid := h (k, v) (by simp)
    exact ⟨wa.1, ih (k + 1) wa.2 (fun e he => h e (by simp [he])) (by omega)⟩

theorem swfFrom_listed (z : α) (k : Nat) (vs : List α) : swfFrom z k (listed z k vs) = true := by
  induction vs generalizing k with
  | nil => rfl
  | cons v r ih =>
    simp only [listed]
    split
    · exact swfFrom_mono z (k + 1) k _ (by omega) (ih (k + 1))
    · rename_i hv; simp [swfFrom, hv, ih (k + 1)]

theorem swfFrom_raise (z : α) (lo k : Nat) (m : List (Nat × α)) (w : swfFrom z lo m = true) (h : ∀ e ∈ m, k ≤ e.1) :
    swfFrom z k m = true := by
  cases m with
  | nil => rfl
  | cons e r =>
    obtain ⟨k', v⟩ := e
    simp only [swfFrom, Bool.and_eq_true, decide_eq_true_eq] at w ⊢
    exact ⟨⟨h (k', v) (by simp), w.1.2⟩, w.2⟩

theorem swf_sput (z : α) (m : List (Nat × α)) (k : Nat) (vs : List α) (w : swf z m = true) : swf z (sput z m k vs) = true := by
  unfold swf sput at *
  apply swfFrom_append z 0 k
  · exact swfFrom_filter z 0 m _ w
  · intro e he; simp at he; omega
  · omega
  · apply swfFrom_append z k (k + vs.length)
    · exact swfFrom_listed z k vs
    · intro e he; exact (listed_keys z k vs e he).2
    · omega
    · exact swfFrom_raise z 0 _ _ (swfFrom_filter z 0 m _ w) fun e he => by simp at he; omega

theorem swf_sclear (z : α) (m : List (Nat × α)) (k n : Nat) (w : swf z m = true) : swf z (sclear m k n) = true :=
  swfFrom_filter z 0 m _ w

/-! ### The module's memory -/

variable (s : State)

theorem byteAt_put (a : Nat) (bs : Bytes) (b : Nat) :
    (s.put a bs).byteAt b = if a ≤ b ∧ b < a + bs.length then bs.getD (b - a) 0 else s.byteAt b := sget_sput 0 _ _ _ _

theorem bytesAt_put_same (a : Nat) (bs : Bytes) : (s.put a bs).bytesAt a bs.length = bs := sgets_sput_same 0 _ _ _

theorem memWf_put (a : Nat) (bs : Bytes) (w : s.memWf) : (s.put a bs).memWf := swf_sput 0 _ _ _ w
theorem memWf_zeroRange (a n : Nat) (w : s.memWf) : (s.zeroRange a n).memWf := swf_sclear 0 _ _ _ w
theorem memWf_trim (a n : Nat) (w : s.memWf) : (s.trim a n).memWf := swf_sclear 0 _ _ _ w

theorem memWf_putExcept (a : Nat) (bs : Bytes) (l : List Nat) (from_ : Nat) (w : s.memWf) :
    (s.putExcept a bs l from_).memWf := by
  induction l generalizing s from_ with
  | nil => exact memWf_put s _ _ w
  | cons x r ih => exact ih _ _ (memWf_put s _ _ w)

end Sys2Proof.Laws
end

