-- ==== Sys2Proof/Laws/Places.lean ====
section
/-! SUPPORT. Lists indexed by number, and what a change of one tile, path, core, engine, channel or attachment does to
each place of the state. -/

namespace Sys2Proof.Laws
open Sys2Proof.Machine

variable {α : Type}

@[simp] theorem modAt_length (l : List α) (i : Nat) (f : α → α) : (modAt l i f).length = l.length := by
  induction l generalizing i with
  | nil => rfl
  | cons x r ih => cases i <;> simp [modAt, ih]

theorem modAt_getElem? (l : List α) (i j : Nat) (f : α → α) :
    (modAt l i f)[j]? = if j = i then l[j]?.map f else l[j]? := by
  induction l generalizing i j with
  | nil => simp [modAt]
  | cons x r ih =>
    cases i with
    | zero => cases j <;> simp [modAt]
    | succ i => cases j <;> simp [modAt, ih]

@[simp] theorem modAt_getElem?_same (l : List α) (i : Nat) (f : α → α) : (modAt l i f)[i]? = l[i]?.map f := by
  simp [modAt_getElem?]

@[simp] theorem modAt_modAt (l : List α) (i : Nat) (f g : α → α) : modAt (modAt l i f) i g = modAt l i fun x => g (f x) := by
  induction l generalizing i with
  | nil => rfl
  | cons x r ih => cases i <;> simp [modAt, ih]

theorem modAt_congr (l : List α) (i : Nat) (f g : α → α) (h : ∀ x, l[i]? = some x → f x = g x) :
    modAt l i f = modAt l i g := by
  induction l generalizing i with
  | nil => rfl
  | cons x r ih =>
    cases i with
    | zero => simp [modAt, h x rfl]
    | succ i => simp only [modAt]; rw [ih i (fun y hy => h y (by simpa using hy))]

variable (s : State)

@[simp] theorem onTile_onTile (t : Nat) (f g : Tile → Tile) : (s.onTile t f).onTile t g = s.onTile t fun x => g (f x) := by
  simp [State.onTile]

@[simp] theorem onPath_onPath (t p : Nat) (f g : Path → Path) :
    (s.onPath t p f).onPath t p g = s.onPath t p fun x => g (f x) := by
  simp [State.onPath]

theorem path?_onPath (t p t' p' : Nat) (f : Path → Path) :
    (s.onPath t p f).path? t' p' = if t' = t ∧ p' = p then (s.path? t' p').map f else s.path? t' p' := by
  simp only [State.path?, State.onPath, onTile_tiles, modAt_getElem?]
  by_cases h : t' = t
  · subst h
    cases ht : s.tiles[t']? with
    | none => simp
    | some x =>
      by_cases hp : p' = p
      · simp [hp]
      · simp [hp, modAt_getElem?]
  · simp [h]

@[simp] theorem path?_onPath_same (t p : Nat) (f : Path → Path) : (s.onPath t p f).path? t p = (s.path? t p).map f := by
  simp [path?_onPath]

@[simp] theorem core?_onPath (t p t' c : Nat) (f : Path → Path) : (s.onPath t p f).core? t' c = s.core? t' c := by
  simp only [State.core?, State.onPath, onTile_tiles, modAt_getElem?]
  by_cases h : t' = t
  · subst h; cases ht : s.tiles[t']? <;> simp
  · simp [h]

@[simp] theorem engine?_onPath (t p t' c : Nat) (f : Path → Path) : (s.onPath t p f).engine? t' c = s.engine? t' c := by
  simp only [State.engine?, State.onPath, onTile_tiles, modAt_getElem?]
  by_cases h : t' = t
  · subst h; cases ht : s.tiles[t']? <;> simp
  · simp [h]

theorem core?_onCore (t c t' c' : Nat) (f : Core → Core) :
    (s.onCore t c f).core? t' c' = if t' = t ∧ c' = c then (s.core? t' c').map f else s.core? t' c' := by
  simp only [State.core?, State.onCore, onTile_tiles, modAt_getElem?]
  by_cases h : t' = t
  · subst h
    cases ht : s.tiles[t']? with
    | none => simp
    | some x =>
      by_cases hp : c' = c
      · simp [hp]
      · simp [hp, modAt_getElem?]
  · simp [h]

theorem engine?_onEngine (t c t' c' : Nat) (f : Engine → Engine) :
    (s.onEngine t c f).engine? t' c' = if t' = t ∧ c' = c then (s.engine? t' c').map f else s.engine? t' c' := by
  simp only [State.engine?, State.onEngine, onTile_tiles, modAt_getElem?]
  by_cases h : t' = t
  · subst h
    cases ht : s.tiles[t']? with
    | none => simp
    | some x =>
      by_cases hp : c' = c
      · simp [hp]
      · simp [hp, modAt_getElem?]
  · simp [h]

@[simp] theorem kernelOn_onPath (t p t' : Nat) (f : Path → Path) : (s.onPath t p f).kernelOn t' = s.kernelOn t' := by
  simp only [State.kernelOn, State.kernel?, State.onPath, onTile_tiles, modAt_getElem?]
  by_cases h : t' = t
  · subst h; cases ht : s.tiles[t']? <;> simp [State.onTile]
  · simp [h, State.onTile]

theorem tiles_onPath (t p : Nat) (f : Path → Path) (x : Tile) (h : s.tiles[t]? = some x) :
    (s.onPath t p f).tiles[t]? = some { x with paths := modAt x.paths p f } := by
  simp [State.onPath, h]

theorem tiles_onPath_ne (t p t' : Nat) (f : Path → Path) (h : t' ≠ t) : (s.onPath t p f).tiles[t']? = s.tiles[t']? := by
  simp [State.onPath, modAt_getElem?, h]

theorem ring?_onRing (a r a' r' : Nat) (f : Ring → Ring) :
    (s.onRing a r f).ring? a' r' = if a' = a ∧ r' = r then (s.ring? a' r').map f else s.ring? a' r' := by
  simp only [State.ring?, State.onRing, onAtt_atts, modAt_getElem?]
  by_cases h : a' = a
  · subst h
    cases ht : s.host.atts[a']? with
    | none => simp
    | some x =>
      by_cases hp : r' = r
      · simp [hp]
      · simp [hp, modAt_getElem?]
  · simp [h]

end Sys2Proof.Laws
end

