-- ==== Sys2Proof/Laws/Store.lean ====
section
/-! SUPPORT. Which parts of the state the shared operations over memory, events and replies change, said once for each,
and that they keep the canonical form of memory. -/

namespace Sys2Proof.Machine

/-! ### States that share parts -/

theorem SameBut.refl (l : List Part) (s : State) : SameBut l s s := by constructor <;> simp

theorem SameBut.trans {l : List Part} {s u v : State} (h : SameBut l s u) (g : SameBut l u v) : SameBut l s v where
  pending := g.pending.trans h.pending
  tiles := fun q => (g.tiles q).trans (h.tiles q)
  hubMover := fun q => (g.hubMover q).trans (h.hubMover q)
  clk := fun q => (g.clk q).trans (h.clk q)
  mem := fun q => (g.mem q).trans (h.mem q)
  host := fun q => (g.host q).trans (h.host q)
  work := fun q => (g.work q).trans (h.work q)
  tel := fun q => (g.tel q).trans (h.tel q)
  fab := fun q => (g.fab q).trans (h.fab q)
  cas := fun q => (g.cas q).trans (h.cas q)
  media := fun q => (g.media q).trans (h.media q)
  resv := fun q => (g.resv q).trans (h.resv q)
  pow := fun q => (g.pow q).trans (h.pow q)
  boot := fun q => (g.boot q).trans (h.boot q)

theorem SameBut.mono {l l' : List Part} {s u : State} (h : SameBut l s u) (q : ∀ x ∈ l, x ∈ l') : SameBut l' s u where
  pending := h.pending
  tiles := fun n => h.tiles fun m => n (q _ m)
  hubMover := fun n => h.hubMover fun m => n (q _ m)
  clk := fun n => h.clk fun m => n (q _ m)
  mem := fun n => h.mem fun m => n (q _ m)
  host := fun n => h.host fun m => n (q _ m)
  work := fun n => h.work fun m => n (q _ m)
  tel := fun n => h.tel fun m => n (q _ m)
  fab := fun n => h.fab fun m => n (q _ m)
  cas := fun n => h.cas fun m => n (q _ m)
  media := fun n => h.media fun m => n (q _ m)
  resv := fun n => h.resv fun m => n (q _ m)
  pow := fun n => h.pow fun m => n (q _ m)
  boot := fun n => h.boot fun m => n (q _ m)

theorem SameBut.foldl {β : Type} {l : List Part} (g : State → β → State) (h : ∀ s b, SameBut l s (g s b)) (bs : List β)
    (s : State) : SameBut l s (bs.foldl g s) := by
  induction bs generalizing s with
  | nil => exact SameBut.refl l s
  | cons b r ih => exact (h s b).trans (ih _)

end Sys2Proof.Machine

namespace Sys2Proof.Laws
open Sys2Proof.Machine

variable (s : State)

/-- What the updates that the memory operations make may change. -/
abbrev memParts : List Part := [.tiles, .mem, .tel, .fab, .resv]

theorem sameBut_onTile (t : Nat) (f : Tile → Tile) : SameBut [.tiles] s (s.onTile t f) := by constructor <;> simp
theorem sameBut_event (c t q r a l : Nat) : SameBut [.tel] s (s.event c t q r a l) := by constructor <;> simp
theorem sameBut_put (a : Nat) (bs : Bytes) : SameBut [.mem] s (s.put a bs) := by constructor <;> simp
theorem sameBut_logLine (line kind src sym : Nat) : SameBut [.tiles] s (s.logLine line kind src sym) := by
  (constructor <;> simp [State.logLine])

theorem sameBut_retire (g f : Nat) : SameBut [.tiles, .tel] s (s.retire g f) := by
  unfold State.retire
  split
  · exact SameBut.refl _ _
  · split
    · exact SameBut.refl _ _
    · dsimp only; split <;> (constructor <;> simp)

theorem sameBut_corrected (src line sym : Nat) : SameBut [.tiles, .tel, .mem] s (s.corrected src line sym) := by
  unfold State.corrected
  dsimp only
  split
  · (constructor <;> simp [State.logLine])
  · split
    · refine SameBut.trans ?_ ((sameBut_retire _ _ _).mono (by simp))
      (constructor <;> simp [State.logLine])
    · (constructor <;> simp [State.logLine])

theorem sameBut_poison (src line : Nat) : SameBut [.tiles, .tel, .mem] s (s.poison src line) := by
  unfold State.poison
  dsimp only
  refine SameBut.trans ?_ ((sameBut_retire _ _ _).mono (by simp))
  (constructor <;> simp [State.logLine])

theorem sameBut_touchLine (src line : Nat) : SameBut [.tiles, .tel, .mem] s (s.touchLine src line).1 := by
  unfold State.touchLine
  split
  · exact SameBut.refl _ _
  · exact sameBut_corrected _ _ _ _
  · exact sameBut_poison _ _ _
  · exact (sameBut_logLine _ _ _ _ _).mono (by simp)

theorem sameBut_storeLine (src a n line : Nat) : SameBut [.tiles, .tel, .mem] s (s.storeLine src a n line).1 := by
  unfold State.storeLine
  split
  · (constructor <;> simp)
  · split
    · exact SameBut.refl _ _
    · exact sameBut_corrected _ _ _ _
    · exact (sameBut_poison _ _ _).trans ((sameBut_logLine _ _ _ _ _).mono (by simp))
    · exact (sameBut_logLine _ _ _ _ _).mono (by simp)

theorem sameBut_foldl_fst {β γ : Type} {l : List Part} (g : State × γ → β → State × γ)
    (h : ∀ x b, SameBut l x.1 (g x b).1) (bs : List β) (x : State × γ) : SameBut l x.1 (bs.foldl g x).1 := by
  induction bs generalizing x with
  | nil => exact SameBut.refl l _
  | cons b r ih => exact (h x b).trans (ih _)

theorem sameBut_load (src a n : Nat) : SameBut [.tiles, .tel, .mem, .resv] s (s.load src a n).1 := by
  unfold State.load
  split
  · exact sameBut_foldl_fst (fun (x : State × Bool) l => let y := x.1.touchLine src l; (y.1, x.2 && y.2))
      (fun x b => (sameBut_touchLine x.1 src b).mono (by simp)) (s.badLines a n) (s, true)
  · split
    · (constructor <;> simp)
    · split <;> exact SameBut.refl _ _

theorem sameBut_putExcept (a : Nat) (bs : Bytes) (l : List Nat) (from_ : Nat) :
    SameBut [.mem] s (s.putExcept a bs l from_) := by
  induction l generalizing s from_ with
  | nil => exact sameBut_put _ _ _
  | cons x r ih => exact (sameBut_put _ _ _).trans (ih _ _)

theorem sameBut_landed (a n : Nat) : SameBut [.fab] s (s.landed a n) := by
  unfold State.landed; split <;> (constructor <;> simp)

theorem sameBut_store (src a : Nat) (bs : Bytes) : SameBut memParts s (s.store src a bs).1 := by
  unfold State.store
  split
  · exact SameBut.refl _ _
  · split
    · have h : ∀ (v : State), SameBut memParts s v →
          SameBut memParts s (if ((((s.badLines a bs.length).foldl
            (fun (x : State × List Nat) l => let y := x.1.storeLine src a bs.length l; (y.1, if y.2 then x.2 else x.2 ++ [l])) (s, [])).2.length ==
              (a + bs.length - 1) / 64 + 1 - a / 64) = true) then v else v.landed a bs.length) := by
        intro v hv; split
        · exact hv
        · exact hv.trans ((sameBut_landed _ _ _).mono (by simp))
      apply h
      have h0 : SameBut memParts s ((s.badLines a bs.length).foldl
            (fun (x : State × List Nat) l => let y := x.1.storeLine src a bs.length l; (y.1, if y.2 then x.2 else x.2 ++ [l])) (s, [])).1 :=
        sameBut_foldl_fst (fun (x : State × List Nat) l => let y := x.1.storeLine src a bs.length l; (y.1, if y.2 then x.2 else x.2 ++ [l]))
          (fun x b => (sameBut_storeLine x.1 src a bs.length b).mono (by simp)) (s.badLines a bs.length) (s, [])
      split
      · exact h0.trans ((sameBut_put _ _ _).mono (by simp))
      · exact h0.trans ((sameBut_putExcept _ _ _ _ _).mono (by simp))
    · split
      · (constructor <;> simp)
      · (constructor <;> simp)

/-- What a write that may have to wait changes. -/
theorem sameBut_storeSoon (src a : Nat) (bs : Bytes) : SameBut memParts s (s.storeSoon src a bs) := by
  unfold State.storeSoon
  split
  · (constructor <;> simp)
  · exact sameBut_store _ _ _ _

/-- What the writes that waited change when they land. -/
theorem sameBut_flushStores : SameBut memParts s s.flushStores := by
  unfold State.flushStores
  exact (show SameBut memParts s { s with mem := { s.mem with waiting := [] } } by constructor <;> simp).trans
    (SameBut.foldl _ (fun _ _ => sameBut_storeSoon _ _ _ _) _ _)

/-- Zeroing of the module's own changes memory and the count of a window's writes. -/
theorem sameBut_zeroLanded (a n : Nat) : SameBut [.mem, .fab] s (s.zeroLanded a n) :=
  (show SameBut [.mem, .fab] s (s.zeroRange a n) by constructor <;> simp).trans ((sameBut_landed _ _ _).mono (by simp))

/-- A check of what a unit reads changes no more than the reads do. -/
theorem sameBut_loadAll (src : Nat) (l : List (Nat × Nat)) : SameBut [.tiles, .tel, .mem, .resv] s (s.loadAll src l).1 :=
  sameBut_foldl_fst (fun (x : State × Bool) r => let y := x.1.load src r.1 r.2; (y.1, x.2 && y.2.isSome))
    (fun x b => sameBut_load x.1 src b.1 b.2) l (s, true)

/-- A check of the lines of which a write changes a part. -/
theorem sameBut_partAll (src : Nat) (l : List (Nat × Nat)) : SameBut [.tiles, .tel, .mem] s (s.partAll src l).1 :=
  sameBut_foldl_fst (fun (x : State × Bool) r => ((x.1.badLines r.1 r.2).filter fun i => !inside (i * 64) 64 r.1 r.2).foldl
      (fun (y : State × Bool) i => let z := y.1.storeLine src r.1 r.2 i; (z.1, y.2 && z.2)) x)
    (fun x b => sameBut_foldl_fst (fun (y : State × Bool) i => let z := y.1.storeLine src b.1 b.2 i; (z.1, y.2 && z.2))
      (fun y i => sameBut_storeLine y.1 src b.1 b.2 i) _ x) l (s, true)

/-! ### Vectors, replies and the end of a command -/

/-- What signalling a vector may change. -/
theorem sameBut_signal (att tenant v : Nat) : SameBut [.host] s (s.signal att tenant v) := by
  unfold State.signal
  repeat' split
  all_goals (constructor <;> simp)

/-- What a reply, and the end of a command, may change. -/
abbrev replyParts : List Part := [.tiles, .mem, .tel, .fab, .resv, .host]

theorem sameBut_reply (loc : ReplyLoc) (bs : Bytes) : SameBut replyParts s (s.reply loc bs) := by
  unfold State.reply
  split
  · (constructor <;> simp)
  · exact (sameBut_storeSoon _ _ _ _).mono (by simp)

theorem sameBut_endCmd (c : RunCmd) (st r0 r1 r2 : Nat) : SameBut replyParts s (s.endCmd c st r0 r1 r2) := by
  have hr : ∀ l : List RunCmd, SameBut replyParts s { s with host := { s.host with running := l } } := by
    intro l; constructor <;> simp
  unfold State.endCmd
  dsimp only
  split
  · exact hr _
  · have h1 := (hr (s.host.running.filter fun x => x.uid != c.uid)).trans
      (sameBut_reply _ c.loc (replyBytes st c.opcode c.seq r0 r1 r2))
    split
    · exact h1.trans ((sameBut_signal _ _ _ _).mono (by simp))
    · exact h1

theorem sameBut_releaseFences : SameBut replyParts s s.releaseFences := by
  unfold State.releaseFences
  apply SameBut.foldl
  intro s b
  split
  · exact SameBut.refl _ _
  · exact sameBut_endCmd _ _ _ _ _ _

theorem sameBut_finish (c : RunCmd) (st r0 r1 r2 : Nat) : SameBut replyParts s (s.finish c st r0 r1 r2) :=
  (sameBut_endCmd _ _ _ _ _ _).trans (sameBut_releaseFences _)

theorem sameBut_finishWait (w : Wait) (st r0 r1 r2 : Nat) : SameBut replyParts s (s.finishWait w st r0 r1 r2) :=
  SameBut.foldl _ (fun _ _ => sameBut_finish _ _ _ _ _ _) _ _

/-! ### The canonical form of memory -/

theorem cells_logLine (line kind src sym : Nat) : (s.logLine line kind src sym).mem = s.mem := by simp [State.logLine]
theorem cells_retire (g f : Nat) : (s.retire g f).mem = s.mem := by
  exact (sameBut_retire s g f).mem (by simp)
theorem cells_corrected (src line sym : Nat) : (s.corrected src line sym).mem.cells = s.mem.cells := by
  unfold State.corrected
  dsimp only
  repeat' split
  all_goals simp [State.logLine, cells_retire]
theorem cells_poison (src line : Nat) : (s.poison src line).mem.cells = s.mem.cells := by
  unfold State.poison; simp [cells_retire, State.logLine]
theorem cells_touchLine (src line : Nat) : (s.touchLine src line).1.mem.cells = s.mem.cells := by
  unfold State.touchLine
  split <;> simp [cells_corrected, cells_poison, cells_logLine]
theorem cells_storeLine (src a n line : Nat) : (s.storeLine src a n line).1.mem.cells = s.mem.cells := by
  unfold State.storeLine
  repeat' split
  all_goals simp [cells_corrected, cells_poison, cells_logLine]

theorem cells_foldl_fst {β γ : Type} (g : State × γ → β → State × γ) (h : ∀ x b, (g x b).1.mem.cells = x.1.mem.cells)
    (bs : List β) (x : State × γ) : (bs.foldl g x).1.mem.cells = x.1.mem.cells := by
  induction bs generalizing x with
  | nil => rfl
  | cons b r ih => rw [List.foldl_cons, ih, h]

/-- A read changes no byte of memory. -/
theorem cells_load (src a n : Nat) : (s.load src a n).1.mem.cells = s.mem.cells := by
  unfold State.load
  split
  · exact cells_foldl_fst (fun (x : State × Bool) l => let y := x.1.touchLine src l; (y.1, x.2 && y.2))
      (fun x b => cells_touchLine x.1 src b) (s.badLines a n) (s, true)
  · repeat' split
    all_goals rfl

theorem landed_mem (a n : Nat) : (s.landed a n).mem = s.mem := by unfold State.landed; split <;> rfl

/-- A write keeps the canonical form. -/
theorem memWf_store (src a : Nat) (bs : Bytes) (w : s.memWf) : (s.store src a bs).1.memWf := by
  unfold State.store
  split
  · exact w
  · split
    · have h0 := cells_foldl_fst (fun (x : State × List Nat) l => let y := x.1.storeLine src a bs.length l; (y.1, if y.2 then x.2 else x.2 ++ [l]))
        (fun x b => cells_storeLine x.1 src a bs.length b) (s.badLines a bs.length) (s, [])
      have w0 : State.memWf ((s.badLines a bs.length).foldl (fun (x : State × List Nat) l =>
        let y := x.1.storeLine src a bs.length l; (y.1, if y.2 then x.2 else x.2 ++ [l])) (s, [])).1 := by
        simpa [State.memWf, h0] using w
      dsimp only
      split
      · split
        · exact memWf_put _ _ _ w0
        · exact memWf_putExcept _ _ _ _ _ w0
      · rw [State.memWf, landed_mem]
        split
        · exact memWf_put _ _ _ w0
        · exact memWf_putExcept _ _ _ _ _ w0
    · split
      · exact memWf_put s a bs w
      · exact memWf_put (s.cleanWords a bs.length) a bs w

theorem memWf_storeSoon (src a : Nat) (bs : Bytes) (w : s.memWf) : (s.storeSoon src a bs).memWf := by
  unfold State.storeSoon; split
  · exact w
  · exact memWf_store _ _ _ _ w

theorem memWf_flushStores (w : s.memWf) : s.flushStores.memWf := by
  unfold State.flushStores
  suffices h : ∀ (l : List (Nat × Nat × Bytes)) (v : State), v.memWf → (l.foldl (fun (st : State) w => st.storeSoon w.1 w.2.1 w.2.2) v).memWf from
    h _ _ w
  intro l
  induction l with
  | nil => exact fun _ q => q
  | cons b r ih => exact fun v q => ih _ (memWf_storeSoon v _ _ _ q)

theorem memWf_zeroLanded (a n : Nat) (w : s.memWf) : (s.zeroLanded a n).memWf := by
  rw [State.memWf, State.zeroLanded, landed_mem]; exact memWf_zeroRange _ _ _ w

theorem memWf_reply (loc : ReplyLoc) (bs : Bytes) (w : s.memWf) : (s.reply loc bs).memWf := by
  unfold State.reply; split
  · exact w
  · exact memWf_storeSoon _ _ _ _ w

/-- A store outside HBM and the staging window writes exactly its bytes. -/
theorem store_tile (src a : Nat) (bs : Bytes) (h : ¬ a < hbmEnd) (q : ∀ n, regionOf a ≠ .quarter n) (hb : bs ≠ []) :
    s.store src a bs = ((s.cleanWords a bs.length).put a bs, true) := by
  unfold State.store
  rw [if_neg hb, if_neg h]
  split
  · rename_i n hn; exact absurd hn (q n)
  · rfl

end Sys2Proof.Laws
end

