-- ==== Sys2Proof/Laws/Commands.lean ====
section
/-! SUPPORT. What starting a host command does, once for all commands. -/

namespace Sys2Proof.Laws
open Sys2Proof.Machine

variable {s s1 : State} {op att ring : Nat} {kind : ParKind} {rc : RunCmd} {c : Cmd} {body : Cmd → State → State × CmdEnd}

/-- A command that starts runs its body and ends as the body says, unless memory it needs is being initialised. -/
theorem startCmd_starts (h : s.starts op kind att ring rc c s1) (w : (body c s1).2.waits = false) :
    s.startCmd op kind att ring body = (body c s1).1.ends rc (body c s1).2 := by
  unfold State.starts at h
  simp [State.startCmd, h, w]

/-- While memory it needs is being initialised a command does not start (10 R338). -/
theorem startCmd_waits (h : s.starts op kind att ring rc c s1) (w : (body c s1).2.waits = true) :
    s.startCmd op kind att ring body = s := by
  unfold State.starts at h
  simp [State.startCmd, h, w]

/-- A command that replies at once. -/
theorem startCmd_done (h : s.starts op kind att ring rc c s1) {u : State} {st r0 r1 r2 : Nat} (w : st ≠ stWait)
    (b : body c s1 = (u, .done st r0 r1 r2)) : s.startCmd op kind att ring body = u.finish rc st r0 r1 r2 := by
  rw [startCmd_starts h (by simp [b, CmdEnd.waits, w]), b]; rfl

/-- A command that stays in flight. -/
theorem startCmd_wait (h : s.starts op kind att ring rc c s1) {u : State} {w : Wait} (b : body c s1 = (u, .wait w)) :
    s.startCmd op kind att ring body = u.ends rc (.wait w) := by
  rw [startCmd_starts h (by simp [b, CmdEnd.waits]), b]

/-- Nothing to start leaves the state. -/
theorem startCmd_none (h : s.taking op kind att ring = none) : s.startCmd op kind att ring body = s := by
  simp [State.startCmd, h]

/-- A check before the command's own that fails replies with its status alone (02 R49). -/
theorem startCmd_fails {st : Nat} (h : s.taking op kind att ring = some (rc, c, s1, st)) (b : st ≠ stOK) :
    s.startCmd op kind att ring body = s1.finish rc st 0 0 0 := by
  simp [State.startCmd, h, b, State.ends, CmdEnd.st]

end Sys2Proof.Laws
end

