-- ==== Sys2Proof/Laws/Power.lean ====
section
/-! SUPPORT. What the rails' switching (17 R592) and the reservoir's and counters' writes (10 R348; 18 R624, R625) change, said
once for each. -/

namespace Sys2Proof.Laws
open Sys2Proof.Machine

variable (s : State)

theorem sameBut_classOn (d : Nat) (c : RailClass) : SameBut [.pow] s (s.classOn d c) := by
  unfold State.classOn; split
  · (constructor <;> simp)
  · exact SameBut.refl _ _
theorem sameBut_classOff (d : Nat) (c : RailClass) : SameBut [.pow] s (s.classOff d c) := by
  unfold State.classOff; split
  · (constructor <;> simp)
  · exact SameBut.refl _ _
theorem sameBut_railsUp (d : Nat) : SameBut [.pow] s (s.railsUp d) :=
  ((sameBut_classOn _ _ _).trans (sameBut_classOn _ _ _)).trans (sameBut_classOn _ _ _)
theorem sameBut_railsDown (d : Nat) : SameBut [.pow] s (s.railsDown d) :=
  ((sameBut_classOff _ _ _).trans (sameBut_classOff _ _ _)).trans (sameBut_classOff _ _ _)
theorem sameBut_setDom (d : Nat) (on : Bool) : SameBut [.pow] s (s.setDom d on) := by (constructor <;> simp [State.setDom])

/-- A rail that is on carries the voltage it is set to. -/
theorem railGood_of_on (r : Rail) (h : r ∈ s.pow.rails) : s.railGood r = true := by
  simp [State.railGood, State.railMv, h]
/-- A rail that is off has fallen below 10 %. -/
theorem railLow_of_off (r : Rail) (h : r ∉ s.pow.rails) : s.railLow r = true := by
  simp [State.railLow, State.railMv, h]

@[simp] theorem resWrote_resv (n : Nat) : (s.resWrote n).resv =
    { s.resv with hostBytes := s.resv.hostBytes + n, nandBytes := s.resv.nandBytes + n } := rfl
theorem sameBut_resWrote (n : Nat) : SameBut [.resv] s (s.resWrote n) := by (constructor <;> simp [State.resWrote])
theorem sameBut_raiseCounter (i v : Nat) : SameBut [.boot] s (s.raiseCounter i v) := by
  (constructor <;> simp [State.raiseCounter])
theorem sameBut_readCounters : SameBut [.boot, .pow] s s.readCounters := by
  unfold State.readCounters; split <;> (constructor <;> simp [State.failBits])

/-- A write of the grotto's that the reservoir takes ends as it says; one that it does not take waits (10 R347). -/
theorem flash_cases (n : Nat) (w : State → State) (e : CmdEnd) :
    (s.resv.resHold = true ∧ s.flash n w e = (s, .wait .reservoir)) ∨
      (s.resv.resHold = false ∧ s.flash n w e = ((w s).resWrote n, e)) := by
  cases h : s.resv.resHold <;> simp [State.flash, h]

end Sys2Proof.Laws
end

