-- ==== Sys2Proof/WellFormed.lean ====
section
/-! DEFINITION. Which commands name a place the module has: attachments 0 to 3, rings 0 to 7, tiles and pairs, mover
channels, ports, tenants, and data of the length the spec gives. A command that names no such place finds no work
(DESIGN CHOICE, log entry 1). -/

namespace Sys2Proof

/-- Attachment 0 to 3 (02). -/
def okAtt (att : Nat) : Bool := decide (att < 4)
/-- Ring 0 to 7 of an attachment (02). -/
def okRing (att ring : Nat) : Bool := okAtt att && decide (ring < 8)
/-- Tile 0 to 7 (01). -/
def okTile (t : Nat) : Bool := decide (t < 8)
/-- Pair 0 to 15 of a tile (01). -/
def okPair (t p : Nat) : Bool := okTile t && decide (p < 16)
/-- Channel of a mover: 64 of a tile, 32 of the hub mover, which is mover 8 (02 R73). -/
def okChan (mv ch : Nat) : Bool := decide (ch < if mv < 8 then 64 else if mv = 8 then 32 else 0)
/-- Port 0 to 5 (11 R352). -/
def okPort (port : Nat) : Bool := decide (port < 6)
/-- Tenant 1 to 4 (02 R51). -/
def okTenant (i : Nat) : Bool := decide (1 ≤ i ∧ i ≤ 4)
/-- A PCIe access of 1 to 4,096 bytes in BAR2, 2 TiB (02). -/
def okRange (off len : Nat) : Bool := decide (0 < len ∧ len ≤ 4096 ∧ off + len ≤ 2 ^ 41)
/-- A register write: BAR0 is 64 KiB (02), the sideband space 64 KiB (19). -/
def okBus (bus : Bus) (offset : Nat) : Bool :=
  match bus with
  | .bar0 att => okAtt att && decide (offset < 0x10000)
  | .i3c => decide (offset < 0x10000)
/-- A rail step, in mV (03 R91). -/
def okRail (mv : Nat) : Bool := decide (550 ≤ mv ∧ mv ≤ 850 ∧ mv % 5 = 0)
/-- Readings of a governor loop: one beat rate for each 5 mV step from 550 to 850 mV (03 R106). -/
def okSense (x : Sensors) : Bool := okRail x.floorMv && decide (x.beat.length = 61)
/-- A line of 64 bytes is 136 symbols with its check symbols (10 R325). -/
def okLine (x : LineFinding) : Bool :=
  match x with
  | .same => true
  | .symbol i => decide (i < 136)
  | .uncorrectable => true

/-- Whether a command names a place the module has (DESIGN CHOICE, log entry 1). -/
def Instr.wf (i : Instr) : Bool :=
  match i with
  | .statusCmd att ring => okRing att ring
  | .identify att ring => okRing att ring
  | .attach att ring => okRing att ring
  | .detach att ring => okRing att ring
  | .attest att ring => okRing att ring
  | .telemetryRead att ring => okRing att ring
  | .planLoad att ring => okRing att ring
  | .jobStart att ring => okRing att ring
  | .jobPause att ring => okRing att ring
  | .jobResume att ring => okRing att ring
  | .jobStop att ring => okRing att ring
  | .stepRun att ring => okRing att ring
  | .kernelLaunch att ring => okRing att ring
  | .moveCmd att ring => okRing att ring
  | .fillCmd att ring => okRing att ring
  | .compareCmd att ring => okRing att ring
  | .fenceCmd att ring => okRing att ring
  | .channelEnable att ring => okRing att ring
  | .channelDisable att ring => okRing att ring
  | .groupCreate att ring => okRing att ring
  | .groupDestroy att ring => okRing att ring
  | .collective att ring => okRing att ring
  | .reshard att ring => okRing att ring
  | .streamOpen att ring => okRing att ring
  | .streamClose att ring => okRing att ring
  | .streamFeed att ring => okRing att ring
  | .streamPriority att ring => okRing att ring
  | .pipeConfigure att ring => okRing att ring
  | .pipeStart att ring => okRing att ring
  | .pipeStop att ring => okRing att ring
  | .pipeSeek att ring => okRing att ring
  | .ckptTake att ring => okRing att ring
  | .ckptRestore att ring => okRing att ring
  | .ckptPolicy att ring => okRing att ring
  | .guardGroupSet att ring => okRing att ring
  | .powerCap att ring => okRing att ring
  | .operatingPolicy att ring => okRing att ring
  | .domainPower att ring => okRing att ring
  | .sleepCmd att ring => okRing att ring
  | .wakeCmd att ring => okRing att ring
  | .blockReset att ring => okRing att ring
  | .moduleReset att ring => okRing att ring
  | .scrubPolicy att ring => okRing att ring
  | .fwStage att ring => okRing att ring
  | .fwActivate att ring => okRing att ring
  | .keyManifest att ring => okRing att ring
  | .kvCreate att ring => okRing att ring
  | .kvAppend att ring => okRing att ring
  | .kvRelease att ring => okRing att ring
  | .rolloutStep att ring => okRing att ring
  | .badOpcode att ring => okRing att ring
  | .doorbellWrite att ring _ => okRing att ring
  | .doorbellRead att ring => okRing att ring
  | .attFenceRead att => okAtt att
  | .ringEnable att ring _ => okRing att ring
  | .ringDisable att ring _ => okRing att ring
  | .registerWrite bus offset _ => okBus bus offset
  | .bar2Read att off len _ => okAtt att && okRange off len
  | .bar2Write att off data => okAtt att && okRange off data.length
  | .replyTimeout _ => true
  | .attachmentReset att => okAtt att
  | .orphanWarn tenant => okTenant tenant
  | .orphanHoldExpiry tenant => okTenant tenant
  | .tenantClearDone hub index => (if hub then okTenant index else okTile index)
  | .stepOpen _ => true
  | .stepEntryStart _ => true
  | .skipCountSum _ => true
  | .stepWorkEnd _ => true
  | .bundleDispatch t p => okPair t p
  | .nop => true
  | .signalTok t p => okPair t p
  | .tokenCountAdd t p => okPair t p
  | .remoteSignal => true
  | .waitTok t p => okPair t p
  | .loop t p => okPair t p
  | .bnz t p => okPair t p
  | .setc t p => okPair t p
  | .addc t p => okPair t p
  | .ldc t p => okPair t p
  | .stc t p => okPair t p
  | .endProg t p => okPair t p
  | .mma t p => okPair t p
  | .kGroup t p _ => okPair t p
  | .odsetA t p => okPair t p
  | .odsetS t p => okPair t p
  | .slotctx t p => okPair t p
  | .slotClear t p => okPair t p
  | .slotLoad t p => okPair t p
  | .slotStore t p => okPair t p
  | .drain t p => okPair t p
  | .drainAdd t p => okPair t p
  | .slotGive t p => okPair t p
  | .slotTake t p => okPair t p
  | .mstat t p => okPair t p
  | .vadd t p => okPair t p
  | .vsub t p => okPair t p
  | .vmul t p => okPair t p
  | .vfma t p => okPair t p
  | .vfms t p => okPair t p
  | .vmin t p => okPair t p
  | .vmax t p => okPair t p
  | .vabs t p => okPair t p
  | .vneg t p => okPair t p
  | .copysign t p => okPair t p
  | .vmov t p => okPair t p
  | .cmpeq t p => okPair t p
  | .cmpne t p => okPair t p
  | .cmplt t p => okPair t p
  | .cmple t p => okPair t p
  | .cmpun t p => okPair t p
  | .sel t p => okPair t p
  | .mand t p => okPair t p
  | .mor t p => okPair t p
  | .mxor t p => okPair t p
  | .mnot t p => okPair t p
  | .rsum t p => okPair t p
  | .rmax t p => okPair t p
  | .exp2 t p => okPair t p
  | .log2 t p => okPair t p
  | .rcp t p => okPair t p
  | .rsqrt t p => okPair t p
  | .sint t p => okPair t p
  | .cost t p => okPair t p
  | .cvt t p => okPair t p
  | .vld t p => okPair t p
  | .vst t p => okPair t p
  | .vldb t p => okPair t p
  | .vstb t p => okPair t p
  | .sld t p => okPair t p
  | .sst t p => okPair t p
  | .slotReturn t p => okPair t p
  | .setlen t p => okPair t p
  | .fget t p => okPair t p
  | .fclr t p => okPair t p
  | .lds t p => okPair t p
  | .sts t p => okPair t p
  | .vctx t p => okPair t p
  | .update t p => okPair t p
  | .ledgerFold t => okTile t
  | .movd t p => okPair t p
  | .xexp t p => okPair t p
  | .spill t p => okPair t p
  | .kernelEnd _ => true
  | .deadlock _ => true
  | .runLimit _ => true
  | .copy mv ch => okChan mv ch
  | .fillDescriptor mv ch => okChan mv ch
  | .compareDescriptor mv ch => okChan mv ch
  | .gather mv ch => okChan mv ch
  | .burstIssue mv => decide (mv ≤ 8)
  | .descriptorComplete mv ch => okChan mv ch
  | .expand t => okTile t
  | .foldGrad t => okTile t
  | .poolMax t => okTile t
  | .poolAvg t => okTile t
  | .poolGrad t => okTile t
  | .cropResize t => okTile t
  | .expansionComplete t => okTile t
  | .saveStream t => okTile t
  | .restoreStream t => okTile t
  | .roundtrip t => okTile t
  | .spillwayComplete t => okTile t
  | .governorLoop t sense => okTile t && okSense sense
  | .slackEmergency t => okTile t
  | .floorHoldExpiry t => okTile t
  | .floorMeasure t floorMv => okTile t && okRail floorMv
  | .ageingMeasurement vRated _ => decide (vRated.length = 8)
  | .telemetryPublish => true
  | .patrolScrubLine g fresh _ => okTile g && okLine fresh
  | .sramScrub word _ => decide (word < 2 ^ 46)
  | .healthRecordRewrite which => decide (which ≤ 8)
  | .memoryGroupReady g => okTile g
  | .linkFrame port data _ => okPort port && decide (data.length = 10280)
  | .identMsg port => okPort port
  | .mapMsg port => okPort port
  | .widthMsg port => okPort port
  | .txeqMsg port => okPort port
  | .linkSignalDetect port => okPort port
  | .linkTrained port _ => okPort port
  | .linkSignalLoss port => okPort port
  | .opticalCalibration port _ => okPort port
  | .packetForward port => okPort port
  | .routeRecompute => true
  | .moduleIdFix => true
  | .sluiceOpen => true
  | .sluiceClose => true
  | .readReq => true
  | .writeReq => true
  | .atomicReq => true
  | .readRsp => true
  | .writeAck => true
  | .atomicRsp => true
  | .peerFence peer => decide (peer < 2 ^ 15)
  | .gapTimeout src vc => decide (src < 2 ^ 15 ∧ vc < 8)
  | .brk => true
  | .responseTimeout (.request tag) => decide (tag < 2 ^ 16)
  | .responseTimeout (.collective _) => true
  | .jobControl => true
  | .controlRsp => true
  | .restoreDone => true
  | .groupAnnounce => true
  | .arrive => true
  | .releaseStep => true
  | .abandon => true
  | .jobFailed => true
  | .holdings => true
  | .wakeControlPacket => true
  | .resetReq => true
  | .cdata _ => true
  | .gdata => true
  | .checkAck => true
  | .resendReq => true
  | .landed => true
  | .collStart vc => decide (vc < 8)
  | .collectiveStall _ => true
  | .pdata => true
  | .ckptCommit _ tier _ => decide (tier < 3)
  | .ckptIntervalRecompute _ => true
  | .stepTimeout _ => true
  | .pictureStart _ => true
  | .pictureComplete encode pipe => decide (pipe < if encode then 4 else 16)
  | .rolloutPicture _ _ => true
  | .batchFillStart tenant => okTenant tenant
  | .fetchSample tenant _ => okTenant tenant
  | .admission tenant => okTenant tenant
  | .decodeSample tenant => okTenant tenant
  | .augment tenant => okTenant tenant
  | .assemble tenant => okTenant tenant
  | .fetchRetry tenant _ => okTenant tenant
  | .pipeStatusRewrite tenant => okTenant tenant
  | .blockIdleTimeout _ => true
  | .powerOn => true
  | .auxMainTimer => true
  | .mainGood _ => true
  | .powerFail _ => true
  | .holdupEnd => true
  | .mainStable => true
  | .auxFail => true
  | .resetPin _ => true
  | .watchdog => true
  | .thermalTrip t _ => okTile t
  | .tripHoldExpiry => true
  | .resetRelease _ _ => true
  | .selftestComplete _ => true
  | .wakeN => true
  | .i3cDynamicAddress _ => true
  | .carrierCap _ => true
  | .fabricOrigin _ => true
  | .sbWake => true
  | .recoveryStart => true
  | .recoveryVerified => true
  | .recoveryClear => true
  | .recoveryData _ => true
  | .attachmentLinkUp att _ => okAtt att
  | .stagingReady => true
  | .reservoirWearLevelling sparePct _ _ => decide (sparePct ≤ 100)

end Sys2Proof
end

