-- ==== Sys2Proof/Tests/Slice0.lean ====
section
/-! SUPPORT. Tests: each check of WellFormed refuses an ill-formed command; for every statement a state and operands that
meet its hypotheses, and what one step gives there. Expected values are worked out from the rules of spec/ that the
statement cites. -/

namespace Sys2Proof.Tests
open Sys2Proof Sys2Proof.Machine
set_option Elab.async false

/-! ### Helper states -/

/-- A tenant with every tile, bound to attachment 0. -/
def ten : Tenant :=
  { id := 1, tiles := 0xFF, att := some 0, lastAtt := 0, ticket := 0, holdS := 60, releasing := false, saved := [], pendVec := [],
    plans := [], telemDest := none }
/-- A tile whose floor is set and whose memory is ready. -/
def tile0 : Tile := { Tile.reset with gov := { Gov.reset with floorSet := true }, mg := { MemGroup.reset with st := 2 } }
/-- Copies that hold nothing, copy 0 running. -/
def copies : Copies := { copy0 := [], copy1 := [], preferred := 0, tryCopy := 0, tryPending := false, running := some 0, ranTry := false }
/-- A module in READY, every domain powered, tenant 1 on attachment 0, module ID 0 in a torus of 4 by 2 by 1. -/
def base : State :=
  { State.reset with
    tiles := List.replicate 8 tile0
    clk := { nowUs := 5000000, resetUs := 0, freeCtr := 0, nextId := 1 }
    host := { State.reset.host with
      atts := { Attachment.reset with link := true, tenant := 1 } :: List.replicate 3 { Attachment.reset with link := true }
      tenants := [ten] }
    fab := { State.reset.fab with modId := some 0, dims := some (4, 2, 1), sluices := true }
    pow := { State.reset.pow with auxHeld := true, mainGood := true, domains := 0xFFFFF, sources := [], episode := none,
                                  bringUp := .ready, stage := 2 }
    boot := { State.reset.boot with stage1 := copies, stage2 := copies, config := copies, manifest := [] } }
/-- A packet: opcode, SEQ 7, tenant, the parameters from byte 16 on. -/
def packet (op tenant : Nat) (par : Bytes) : Bytes :=
  toLE 2 op ++ toLE 2 0 ++ toLE 4 7 ++ toLE 2 tenant ++ toLE 6 0 ++ padTo 48 par
/-- The state with a packet taken on ring 0 of attachment 0. -/
def sent (s : State) (op : Nat) (par : Bytes) : State :=
  s.onRing 0 0 fun r => { r with taken := [{ index := 0, loc := .hub 0 0, bytes := packet op (((s.host.atts[0]?).map (·.tenant)).getD 0) par, uid := 0, timedOut := false }] }
/-- Whether the packet starts and command and state meet a test. -/
def meets (s : State) (op : Nat) (kind : ParKind) (q : Cmd → State → Bool) : Bool :=
  match s.taking op kind 0 0 with
  | some (_, c, s1, st) => st == stOK && q c s1
  | none => false
/-- The next state of a command meets a test. -/
def after (i : Instr) (s : State) (q : State → Bool) : Bool :=
  match exec i s with
  | .next u => q u
  | _ => false
/-- Status, sequence number and result words of the reply in slot 0. -/
def replied (u : State) : List Nat :=
  [(sget 0 u.host.hub (hubKey 0 0x400)).toNat, leNat (sgets 0 u.host.hub (hubKey 0 0x404) 4), leNat (sgets 0 u.host.hub (hubKey 0 0x408) 8),
   leNat (sgets 0 u.host.hub (hubKey 0 0x410) 8), leNat (sgets 0 u.host.hub (hubKey 0 0x418) 8)]
/-- What the running commands wait for. -/
def waits (u : State) : List Wait := u.host.running.map (·.wait)

/-! ### Well-formedness: each check refuses a command that names no place -/

theorem test_wf_attachment : (Instr.attFenceRead 3).wf = true ∧ (Instr.attFenceRead 4).wf = false := by decide
theorem test_wf_ring : (Instr.statusCmd 3 7).wf = true ∧ (Instr.statusCmd 3 8).wf = false ∧ (Instr.statusCmd 4 0).wf = false := by decide
theorem test_wf_tile : (Instr.expand 7).wf = true ∧ (Instr.expand 8).wf = false := by decide
theorem test_wf_pair : (Instr.mma 7 15).wf = true ∧ (Instr.mma 7 16).wf = false ∧ (Instr.mma 8 0).wf = false := by decide
theorem test_wf_channel : (Instr.copy 7 63).wf = true ∧ (Instr.copy 7 64).wf = false ∧ (Instr.copy 8 31).wf = true ∧ (Instr.copy 8 32).wf = false ∧
    (Instr.copy 9 0).wf = false := by decide
theorem test_wf_mover : (Instr.burstIssue 8).wf = true ∧ (Instr.burstIssue 9).wf = false := by decide
theorem test_wf_port : (Instr.packetForward 5).wf = true ∧ (Instr.packetForward 6).wf = false := by decide
theorem test_wf_tenant : (Instr.admission 4).wf = true ∧ (Instr.admission 5).wf = false ∧ (Instr.admission 0).wf = false := by decide
theorem test_wf_bar2 : (Instr.bar2Read 0 (2 ^ 41 - 8) 8 false).wf = true ∧ (Instr.bar2Read 0 (2 ^ 41 - 7) 8 false).wf = false ∧
    (Instr.bar2Write 0 0 []).wf = false ∧ (Instr.bar2Read 0 0 4097 false).wf = false := by decide
theorem test_wf_register : (Instr.registerWrite (.bar0 3) 0xFFFF 0).wf = true ∧ (Instr.registerWrite (.bar0 4) 0 0).wf = false ∧
    (Instr.registerWrite .i3c 0x10000 0).wf = false := by decide
theorem test_wf_clear : (Instr.tenantClearDone true 4).wf = true ∧ (Instr.tenantClearDone true 0).wf = false ∧ (Instr.tenantClearDone false 0).wf = true ∧
    (Instr.tenantClearDone false 8).wf = false := by decide
theorem test_wf_rail : (Instr.floorMeasure 0 850).wf = true ∧ (Instr.floorMeasure 0 855).wf = false ∧ (Instr.floorMeasure 0 551).wf = false ∧
    (Instr.floorMeasure 0 545).wf = false := by decide
theorem test_wf_sense : (Instr.governorLoop 0 { slack := 16, floorMv := 550, tj := 0, currentMa := 0, inputMw := 0, inputMv := 0, powerMw := 0, beat := List.replicate 61 0, vRated := 0 }).wf = true ∧
    (Instr.governorLoop 0 { slack := 16, floorMv := 550, tj := 0, currentMa := 0, inputMw := 0, inputMv := 0, powerMw := 0, beat := List.replicate 60 0, vRated := 0 }).wf = false := by decide
theorem test_wf_ageing : (Instr.ageingMeasurement (List.replicate 8 720) true).wf = true ∧ (Instr.ageingMeasurement (List.replicate 7 720) true).wf = false := by decide
theorem test_wf_line : (Instr.patrolScrubLine 0 (.symbol 135) 0).wf = true ∧ (Instr.patrolScrubLine 0 (.symbol 136) 0).wf = false := by decide
theorem test_wf_word : (Instr.sramScrub (2 ^ 46 - 1) .single).wf = true ∧ (Instr.sramScrub (2 ^ 46) .single).wf = false := by decide
theorem test_wf_record : (Instr.healthRecordRewrite 8).wf = true ∧ (Instr.healthRecordRewrite 9).wf = false := by decide
theorem test_wf_frame : (Instr.linkFrame 0 [] 0).wf = false := by decide
theorem test_wf_trained : (Instr.linkTrained 5 0xF).wf = true ∧ (Instr.linkTrained 6 0xF).wf = false := by decide
theorem test_wf_calibration : (Instr.opticalCalibration 5 7).wf = true ∧ (Instr.opticalCalibration 6 7).wf = false := by decide
theorem test_wf_module : (Instr.peerFence 0x7FFF).wf = true ∧ (Instr.peerFence 0x8000).wf = false ∧ (Instr.gapTimeout 0x8000 0).wf = false ∧
    (Instr.gapTimeout 0 8).wf = false ∧ (Instr.collStart 8).wf = false := by decide
theorem test_wf_tag : (Instr.responseTimeout (.request 0xFFFF)).wf = true ∧ (Instr.responseTimeout (.request 0x10000)).wf = false := by decide
theorem test_wf_tier : (Instr.ckptCommit 0 2 true).wf = true ∧ (Instr.ckptCommit 0 3 true).wf = false := by decide
theorem test_wf_pipe : (Instr.pictureComplete true 3).wf = true ∧ (Instr.pictureComplete true 4).wf = false ∧ (Instr.pictureComplete false 15).wf = true ∧
    (Instr.pictureComplete false 16).wf = false := by decide
theorem test_wf_trip : (Instr.thermalTrip 8 0).wf = false := by decide
theorem test_wf_spare : (Instr.reservoirWearLevelling 100 0 0).wf = true ∧ (Instr.reservoirWearLevelling 101 0 0).wf = false := by decide
/-- The opcode table gives no row bits, so no word spells a command (log entry 5). -/
theorem test_no_word : decodeTableWord 64 0x0201 = none ∧ base.withFetchWord 64 0x0201 = base := by decide

/-! ### Kernels: the control slot and tokens -/

/-- A slot word from fields at their lowest bits. -/
def word (l : List (Nat × Nat)) : BitVec 64 := BitVec.ofNat 64 ((l.map fun x => x.1 * 2 ^ x.2).sum)
/-- A kernel on tiles 0 and 1. -/
def kern : Kernel :=
  { kid := 9, tenant := 1, entry := none, tiles := [0, 1], pairMask := 1, seed := 0, step := 0, roll := [], runLimitMs := 60000, faults := [],
    startUs := 0 }
/-- Control registers 0 to 15 holding ten times their number. -/
def pathA : Path := { Path.reset with active := true, creg := (List.range 16).map fun i => BitVec.ofNat 32 (10 * i) }
/-- The kernel runs, path 0 of tile 0 is `x` and the rest of the pair as given. -/
def running (x : Path) (c : Core) (e : Engine) : State :=
  { base with
    tiles := { tile0 with kernel := some 9, paths := x :: List.replicate 15 Path.reset, cores := c :: List.replicate 15 Core.reset,
                          engines := e :: List.replicate 15 Engine.reset, tokOwner := List.replicate 256 0, tok := [(255, 7)] } ::
      { tile0 with kernel := some 9 } :: List.replicate 6 tile0
    work := { State.reset.work with kernels := [kern] } }
/-- The kernel runs with path 0 of tile 0 as `x`. -/
def runs (x : Path) : State := running x Core.reset Engine.reset
/-- A queue entry. -/
def item (w : BitVec 64) (areg : BitVec 32) : QItem := { word := w, areg := areg, bundle := 3, seq := 0 }
/-- A path whose control slot holds `w`. -/
def ctl (w : BitVec 64) (areg : BitVec 32) : Path := { pathA with ctl := some (item w areg), pc := 4 }
/-- Path 0 of tile 0 afterwards. -/
def path0 (u : State) (q : Path → Bool) : Bool := (u.path? 0 0).any q

/-- The hypotheses on a control instruction, for every word. -/
theorem test_control_held (op : Nat) (w : BitVec 64) (a : BitVec 32) (h : wf w 5 0 = op) :
    (runs (ctl w a)).ctlHeld 0 0 op kern (ctl w a) (item w a) :=
  ⟨rfl, rfl, rfl, (by decide : (runs pathA).issues 0 = true), rfl, h⟩

theorem test_c0_ignored : (pathA.setC 0 5 = pathA ∧ pathA.c 0 = 0 ∧ (pathA.setC 15 5).c 15 = 5 ∧ (pathA.setC 15 5).c 14 = 140) := by decide
theorem test_setc : after (.setc 0 0) (runs (ctl (word [(0x05, 0), (15, 6), (0xFFFFFFFF, 10)]) 0))
    (fun u => path0 u fun x => x.c 15 == 0xFFFFFFFF && x.c 14 == 140 && x.ctl.isNone) = true := by decide
theorem test_addc_wraps : after (.addc 0 0) (runs (ctl (word [(0x06, 0), (15, 6), (15, 10), (0xFFFFFFFF, 14)]) 0))
    (fun u => path0 u fun x => x.c 15 == 149) = true := by decide
theorem test_bnz_falls : after (.bnz 0 0) (runs (ctl (word [(0x04, 0), (1, 6), (2047, 10)]) 0)) (fun u => path0 u fun x => x.pc == 5) = true := by decide
theorem test_bnz_jumps : inIdleBody pathA.prog (keepLoops pathA.loops 2047) 2047 = false ∧
    after (.bnz 0 0) (runs (ctl (word [(0x04, 0), (1, 6), (2047, 10)]) 1)) (fun u => path0 u fun x => x.pc == 2047) = true := by decide
theorem test_loop_none : after (.loop 0 0) (runs (ctl (word [(0x03, 0), (1, 6), (2000, 26)]) 0)) (fun u => path0 u fun x => x.pc == 2001 && x.loops == []) = true := by decide
theorem test_loop_many : after (.loop 0 0) (runs (ctl (word [(0x03, 0), (0, 6), (65535, 10), (2000, 26)]) 0))
    (fun u => path0 u fun x => x.pc == 5 && x.loops == [{ first := 5, last := 2000, left := 65535 }]) = true := by decide
theorem test_end : after (.endProg 0 0) (runs (ctl (word [(0x3F, 0)]) 0)) (fun u => path0 u fun x => x.ended) = true := by decide
theorem test_ldc_last : inMem ((item (word [(0x07, 0), (15, 6), (0x3FFFFFC, 14)]) 0).eff 0x3FFFFFC) 4 4 cisBytes = true ∧
    after (.ldc 0 0) ((runs (ctl (word [(0x07, 0), (15, 6), (0x3FFFFFC, 14)]) 0)).put (cisAddr 0 0x3FFFFFC) [1, 2, 3, 4])
      (fun u => path0 u fun x => x.c 15 == 0x04030201) = true := by decide
theorem test_stc_last : after (.stc 0 0) (runs (ctl (word [(0x08, 0), (15, 6), (0x3FFFFF8, 14)]) 4))
    (fun u => u.bytesAt (cisAddr 0 0x3FFFFFC) 4 == [150, 0, 0, 0] && (u.path? 0 0).any (·.ctl.isNone)) = true := by decide

theorem test_stc_error : let s := runs (ctl (word [(0x08, 0), (15, 6), (0x3FFFFF8, 14)]) 4)
    after (.stc 0 0) { s with mem := { s.mem with wordErr := [(cisAddr 0 0x3FFFFFC / 8, .double)] } }
      (fun u => u.work.kernels.map (fun k => k.faults.map (·.code)) == [[0x0F]] && u.mem.cells == [] && path0 u (·.ctl.isNone)) = true := by decide +kernel

/-- A bundle with NOP in the slots not given. -/
def bundle (c m v x : BitVec 64) : Bundle := { ctl := c, mat := m, vec := v, mov := x }
/-- A path whose next bundle is `b`. -/
def prog (b : Bundle) : Path := { pathA with prog := [b] }

theorem test_bundle : let b := bundle 0 (word [(0x05, 0), (1, 6)]) (word [(0x4B, 0)]) 0
    let x := prog b
    (runs x).dispatchable 0 0 = some (kern, x) ∧ x.prog[x.pc]? = some b ∧ x.bundleOk kern b = true ∧ x.room b = true ∧
    after (.bundleDispatch 0 0) (runs x) (fun u => path0 u fun y => y.pc == 1 && y.mq.length == 1 && y.vq.length == 1 && y.xq.length == 0) = true := by decide
theorem test_bundle_no_room : let b := bundle 0 (word [(0x05, 0)]) (word [(0x4B, 0)]) 0
    let x := { prog b with vq := List.replicate 16 (item 0x4B 0) }
    (runs x).dispatchable 0 0 = some (kern, x) ∧ x.bundleOk kern b = true ∧ x.room b = false ∧
    after (.bundleDispatch 0 0) (runs x) (fun u => path0 u fun y => y.pc == 0 && y.mq.length == 0) = true := by decide
theorem test_wait_reached : let b := bundle (word [(0x02, 0), (255, 6), (7, 14)]) 0 0 0
    let x := prog b
    (runs x).dispatchable 0 0 = some (kern, x) ∧ x.bundleOk kern b = true ∧ wf b.ctl 5 0 = 2 ∧ x.waited = false ∧ x.room b = true ∧
    after (.waitTok 0 0) (runs x) (fun u => path0 u (·.waited) && (u.tiles[0]?).any fun y => y.tokAt 255 == 0) = true := by decide
theorem test_wait_held : let b := bundle (word [(0x02, 0), (255, 6), (8, 14)]) 0 0 0
    let x := prog b
    (runs x).dispatchable 0 0 = some (kern, x) ∧ x.bundleOk kern b = true ∧
    ((runs x).tiles[0]?).map (fun y => (y.tokOwner.getD 255 16, y.tokAt 255)) = some (0, 7) ∧
    after (.waitTok 0 0) (runs x) (fun u => path0 u fun z => !z.waited) = true ∧
    after (.bundleDispatch 0 0) (runs x) (fun u => path0 u fun z => z.pc == 0) = true := by decide
theorem test_signal_own : after (.signalTok 0 0) (runs (ctl (word [(0x01, 0), (255, 9)]) 0))
    (fun u => (u.tiles[0]?).any fun y => y.tokAt 255 == 8 && y.tokAt 254 == 0) = true := by decide
theorem test_signal_other : after (.signalTok 0 0) (runs (ctl (word [(0x01, 0), (255, 9), (1, 17)]) 0))
    (fun u => (u.tiles[0]?).any (fun y => y.tokAt 255 == 7) && u.work.remoteSig.map (·.dst) == [1]) = true := by decide
theorem test_signal_units : after (.signalTok 0 0) (runs (ctl (word [(0x01, 0), (7, 6), (3, 9)]) 0)) (fun u => path0 u fun x => x.sigs.length == 1) = true := by decide
theorem test_token_add :
    let g : Signal := { token := 255, ttile := 0, mUpTo := 0, vUpTo := 0, xUpTo := 0, bundle := 0 }
    let x := { pathA with sigs := [g] }
    x.sigs.find? (signalReady x Core.reset 9) = some g ∧
    after (.tokenCountAdd 0 0) (runs x) (fun u => (u.tiles[0]?).any (fun y => y.tokAt 255 == 8) && path0 u fun z => z.sigs == []) = true := by decide
theorem test_remote_signal : let s := runs pathA
    after .remoteSignal { s with work := { s.work with remoteSig := [{ src := 1, dst := 0, token := 255, kid := 9, pair := 0, bundle := 0 }] } }
      (fun u => (u.tiles[0]?).any (fun y => y.tokAt 255 == 8) && u.work.remoteSig.isEmpty) = true := by decide
theorem test_nop : after .nop base (fun u => u.clk == base.clk) = true := by decide

/-- What holds of the kernel's end. -/
def ended (u : State) : Bool := (u.kernel? 9).isNone && (u.tiles.all fun x => x.kernel.isNone && x.tok.isEmpty)
theorem test_kernel_end : let s := runs { pathA with ended := true }
    s.kernel? 9 = some kern ∧ s.kernelRemotes 9 = false ∧ s.kernelDone kern = true ∧ after (.kernelEnd 9) s ended = true := by decide +kernel
theorem test_deadlock : let s := runs { pathA with prog := [bundle (word [(0x02, 0), (255, 6), (8, 14)]) 0 0 0] }
    s.kernelStalled kern = true ∧ s.kernelRemotes 9 = false ∧ after (.deadlock 9) s ended = true := by decide +kernel
theorem test_run_limit : let s := runs pathA
    after (.runLimit 9) { s with clk := { s.clk with nowUs := 60000000 } } ended = true ∧
    after (.runLimit 9) { s with clk := { s.clk with nowUs := 59999999 } } (fun u => (u.kernel? 9).isSome) = true := by decide +kernel

/-! ### Matrix cores -/

/-- A path whose matrix queue starts with `w`. -/
def mat (w : BitVec 64) (a : BitVec 32) : Path := { pathA with mq := [item w a] }
/-- The hypotheses on a matrix instruction, for every word and every core that is not fenced. -/
theorem test_matrix_held (op : Nat) (w : BitVec 64) (a : BitVec 32) (c : Core) (hc : c.fenced = false) (h : wf w 5 0 = op) :
    (running (mat w a) c Engine.reset).matHeld 0 0 op (mat w a) { k := kern, q := item w a, c := c } :=
  ⟨rfl, rfl, rfl, rfl, (by decide : (runs pathA).issues 0 = true), rfl, h, rfl, hc⟩
/-- A slot access descriptor for the cistern. -/
def accDesc (addr pitch rows cols fmt mode rec_ : Nat) : Bytes :=
  toLE 4 (2 ^ 31 + addr) ++ toLE 4 pitch ++ toLE 2 rows ++ toLE 2 cols ++ toLE 1 fmt ++ toLE 1 mode ++ toLE 2 0 ++ toLE 4 0 ++ toLE 4 rec_ ++ toLE 8 0
/-- A core whose slot 15 holds 1.5 in its first element. -/
def coreA : Core := { Core.reset with acc := [(65536 * 15, 0x3FC00000)] }
/-- Core 0 of tile 0 afterwards. -/
def core0 (u : State) (q : Core → Bool) : Bool := (u.core? 0 0).any q

theorem test_odset_a : (item (word [(2, 0), (31, 6), (131071, 15), (256, 32), (1, 41), (131071, 42)]) 0).eff (131071 * 64) % 64 = 0 ∧
    after (.odsetA 0 0) (running (mat (word [(2, 0), (31, 6), (131071, 15), (256, 32), (1, 41), (131071, 42)]) 0) Core.reset Engine.reset)
      (fun u => core0 u fun c => c.ods.getD 31 OpDesc.zero ==
        { base := 131071 * 64, lines := 256, strided := true, stride := 131071 * 64, scaleBase := 0, scaleStride := 0 }) = true := by decide
theorem test_odset_s : after (.odsetS 0 0) (running (mat (word [(3, 0), (31, 6), (8388607, 15), (8388607, 38)]) 0) Core.reset Engine.reset)
    (fun u => core0 u fun c => (c.ods.getD 31 OpDesc.zero).scaleBase == 8388607 && (c.ods.getD 31 OpDesc.zero).scaleStride == 8388607) = true := by decide
theorem test_slotctx : let s := (running (mat (word [(4, 0), (15, 6), (0x3FFFFE0, 14)]) 0) Core.reset Engine.reset).put (cisAddr 0 0x3FFFFE0) ((List.range 20).map fun i => BitVec.ofNat 8 (if i < 16 then i else 0))
    let m : MIn := { k := kern, q := item (word [(4, 0), (15, 6), (0x3FFFFE0, 14)]) 0, c := Core.reset }
    m.slotFree = true ∧ inMem m.desc 32 32 cisBytes = true ∧ s.sramBad (cisAddr 0 m.desc) 32 = false ∧
    fld (s.bytesAt (cisAddr 0 m.desc) 32) 16 4 < 2 ^ 26 ∧ zeroAt (s.bytesAt (cisAddr 0 m.desc) 32) 20 12 = true ∧
    after (.slotctx 0 0) s (fun u => core0 u fun c => (c.ctxAt 15).rowBase == 0x07060504 && (c.ctxAt 15).kgBase == 0x0F0E0D0C) = true := by decide +kernel
theorem test_slot_clear : after (.slotClear 0 0) (running (mat (word [(5, 0), (15, 6)]) 0) coreA Engine.reset)
    (fun u => core0 u fun c => c.acc == [] && c.accAt 15 0 0 == 0) = true := by decide +kernel
theorem test_slot_give : after (.slotGive 0 0) (running (mat (word [(0x0A, 0), (15, 6)]) 0) coreA Engine.reset)
    (fun u => core0 u fun c => c.given.getD 15 false && !c.given.getD 14 false) = true := by decide
theorem test_slot_take : after (.slotTake 0 0) (running (mat (word [(0x0B, 0), (15, 6)]) 0) coreA Engine.reset)
    (fun u => path0 u fun x => x.mq == []) = true ∧
    after (.slotTake 0 0) (running (mat (word [(0x0B, 0), (15, 6)]) 0) { coreA with given := List.replicate 16 true } Engine.reset)
      (fun u => path0 u fun x => x.mq.length == 1) = true := by decide
theorem test_regions : (coreA.setAcc 15 255 255 1 1 fun _ _ => 7).accAt 15 255 255 = 7 ∧ (coreA.setAcc 15 255 255 1 1 fun _ _ => 7).accAt 15 0 0 = 0x3FC00000 := by decide
/-- A panel of one line of S16 at offset `b` of the basin. -/
def panel (b : Nat) : OpDesc := { base := b, lines := 1, strided := false, stride := 64, scaleBase := 0, scaleStride := 0 }
theorem test_mma : let m : MIn := { k := kern, q := item (word [(1, 0), (15, 6), (1, 10), (2, 15), (1, 20), (3, 40)]) 0, c := { coreA with ods := OpDesc.zero :: panel 0 :: panel 0x7FFFC0 :: [] } }
    m.c.runs.length < 4 ∧ m.mmaFault = none ∧
    after (.mma 0 0) (running (mat m.q.word 0) m.c Engine.reset) (fun u => core0 u fun c => c.runs.map (fun r => (r.slot, r.oda.base, r.odb.base, r.kExt)) == [(15, 0, 0x7FFFC0, 1)]) = true := by decide
/-- An MMA of 1.0 by 2.0 into slot 15, whose turn it is. -/
def mmaA : MmaRun :=
  { seq := 0, bundle := 0, kid := 9, slot := 15, oda := panel 0, odb := panel 0x7FFFC0, kExt := 1, fmt := 3, rmode := 0, spill := 0, clear := false, j := 0 }
/-- Its state: the products 1.0 and 2.0 in the basin. -/
def groupA : State := ((running pathA { coreA with runs := [mmaA] } Engine.reset).put (basAddr 0 0 0) [0x80, 0x3F]).put (basAddr 0 0 0x7FFFC0) [0x00, 0x40]
theorem test_k_group : (nextSlot 0 [mmaA]).bind (fun n => [mmaA].find? fun y => y.slot == n) = some mmaA ∧ fmtOf 3 = some .s16 ∧
    groupA.groupBad 0 0 mmaA .s16 0 1 = false ∧
    groupA.mismatch 0 0 mmaA .s16 [.sum 0 0 1] = true ∧
    after (.kGroup 0 0 []) groupA (fun u => core0 u fun c => c.accAt 15 0 0 == 0x40600000 && (c.ctxAt 15).groups == 1 && c.runs == []) = true := by decide +kernel
theorem test_k_group_again : after (.kGroup 0 0 [.sum 0 0 1]) groupA
    (fun u => core0 u fun c => c.accAt 15 0 0 == 0x3FC00000 && c.checksumFaults == 1 && c.runs.length == 1) = true := by decide +kernel
/-- The state before a descriptor-form instruction of slot 15 whose descriptor, in the last 32 bytes of the cistern, is `d`. -/
def descState (op : Nat) (d : Bytes) : State :=
  ((running (mat (word [(op, 0), (15, 6), (0x3FFFFE0, 14)]) 0) coreA Engine.reset).put (cisAddr 0 0x3FFFFE0) d).put (cisAddr 0 0) [0, 0, 0, 0x41]
theorem test_slot_load : let b := accDesc 0 4 1 1 4 0 0
    accOk .load b = true ∧ rowsFit 0 4 1 4 cisBytes = true ∧
    after (.slotLoad 0 0) (descState 6 b) (fun u => core0 u fun c => c.accAt 15 0 0 == 0x41000000) = true := by decide +kernel
theorem test_slot_load_s16 : let b := accDesc 2 2 1 1 3 0 0
    accOk .load b = true ∧
    after (.slotLoad 0 0) (descState 6 b) (fun u => core0 u fun c => c.accAt 15 0 0 == 0x41000000) = true := by decide +kernel
theorem test_slot_store : let b := accDesc 4 4 1 1 0 0 0
    accOk .store b = true ∧ (descState 7 b).accBad 0 0 15 1 1 = false ∧
    after (.slotStore 0 0) (descState 7 b) (fun u => u.bytesAt (cisAddr 0 0) 9 == [0, 0, 0, 0x41, 0, 0, 0xC0, 0x3F, 0]) = true := by decide +kernel
theorem test_drain : let b := accDesc 64 64 1 1 3 0 0
    let m : MIn := { k := kern, q := item (word [(8, 0), (15, 6), (0x3FFFFE0, 14)]) 0, c := coreA }
    (descState 8 b).drainFault 0 0 m (slotAcc b) false (accOk .drain b) = none ∧ rmodeOf (slotAcc b).omode = some .rne ∧
    after (.drain 0 0) (descState 8 b) (fun u => u.bytesAt (cisAddr 0 64) 2 == [0xC0, 0x3F] && core0 u fun c => c.accAt 15 0 0 == 0) = true := by decide +kernel
theorem test_drain_add : let b := accDesc 64 64 1 1 4 0 0
    let m : MIn := { k := kern, q := item (word [(9, 0), (15, 6), (0x3FFFFE0, 14)]) 0, c := coreA }
    (descState 9 b).drainFault 0 0 m (slotAcc b) true (accOk .drainAdd b) = none ∧
    after (.drainAdd 0 0) (descState 9 b) (fun u => u.bytesAt (cisAddr 0 64) 4 == [0, 0, 0x18, 0x41] && core0 u fun c => c.acc == []) = true := by decide +kernel
theorem test_mstat : after (.mstat 0 0) (running (mat (word [(0x0C, 0), (0x3FFFFE0, 14)]) 0) { coreA with checksumFaults := 3 } Engine.reset)
    (fun u => u.bytesAt (cisAddr 0 0x3FFFFE0) 32 == faultRecord 0 0 5000000 { coreA with checksumFaults := 3 } && path0 u fun x => x.mq == []) = true := by decide +kernel
theorem test_rounding : roundShift .rne 0 5 1 = (2, true) ∧ roundShift .rne 0 7 1 = (4, true) ∧ roundShift .rto 0 9 1 = (5, true) ∧
    roundShift .rto 0 11 1 = (5, true) ∧ roundShift .sr 32768 5 1 = (3, true) ∧ roundShift .sr 32767 5 1 = (2, true) := by decide
theorem test_convert_largest : (conv .s4 .rne 0 false (decodeF .s4 15)).code = 15 ∧ (conv .h32 .sr 65535 true (decodeF .h32 0x7F7FFFFF)).code = 0x7F7FFFFF := by decide

/-! ### Vector engines -/

/-- A path whose vector queue starts with `w`. -/
def vec (w : BitVec 64) (a : BitVec 32) : Path := { pathA with vq := [item w a] }
/-- The hypotheses on a vector instruction, for every word and every engine. -/
theorem test_vector_held (op : Nat) (w : BitVec 64) (a : BitVec 32) (c : Core) (e : Engine) (h : wf w 7 0 = op)
    (he : e.regErr = []) : (running (vec w a) c e).vecHeld 0 0 op (vec w a) { k := kern, q := item w a, e := e } :=
  ⟨⟨rfl, rfl, rfl, rfl, (by decide : (runs pathA).issues 0 = true), rfl, h, rfl⟩, he⟩
/-- Element (0, 0) of V1 to V7: 1.5, 2, -4, 3, 8, 4, 0; (0, 0) and (0, 1) of V31 hold 7; one row and one column; M3 all ones. -/
def engA : Engine :=
  { Engine.reset with
    v := [(512, 0x3FC00000), (1024, 0x40000000), (1536, 0xC0800000), (2048, 0x40400000), (2560, 0x41000000), (3072, 0x40800000),
          (15872, 7), (15873, 7)]
    m := (List.range 128).map fun i => if i / 16 = 3 then BitVec.allOnes 64 else 0, lrows := 1, lcols := 1 }
/-- A register-form word: opcode, destination, A, B, C. -/
def regWord (op vd a b c : Nat) : BitVec 64 := word [(op, 0), (vd, 8), (a, 13), (b, 20), (c, 27)]
/-- What is read of the instruction for the hypotheses. -/
def vin (w : BitVec 64) (e : Engine) : VIn := { k := kern, q := item w 0, e := e }
/-- Engine 0 of tile 0 afterwards. -/
def eng0 (u : State) (q : Engine → Bool) : Bool := (u.engine? 0 0).any q
/-- The next state after a vector instruction of the engine `e`. -/
def vecAfter (i : Instr) (w : BitVec 64) (e : Engine) (q : Engine → Bool) : Bool :=
  decide ((vin w e).regFault = none) && after i (running (vec w 0) Core.reset e) fun u => eng0 u q

theorem test_vadd : vecAfter (.vadd 0 0) (regWord 0x01 31 1 2 3) engA (fun e => e.h 31 0 0 == 0x40600000 && e.h 31 0 1 == 7) = true := by decide +kernel
/-- V2 and S15 with single-bit errors, V1 with a double-bit error. -/
def engErr (l : List (Nat × WordErr)) : Engine := { engA with regErr := l }
theorem test_register_double : after (.vadd 0 0) (running (vec (regWord 0x01 31 1 2 3) 0) Core.reset (engErr [(1, .double), (2, .single)]))
    (fun u => (u.work.kernels.any fun k => k.faults.map (·.code) == [0x0F]) && eng0 u fun e => e.h 31 0 0 == 7) = true := by decide +kernel
theorem test_register_single : after (.vadd 0 0) (running (vec (regWord 0x01 31 1 2 3) 0) Core.reset (engErr [(2, .single), (55, .single)]))
    (fun u => (eng0 u fun e => e.h 31 0 0 == 0x40600000 && e.regErr == [(55, .single)]) &&
      (u.tiles[0]?).any fun y => y.gov.regEccCe == 1) = true := by decide +kernel
theorem test_vsub : vecAfter (.vsub 0 0) (regWord 0x02 31 1 2 3) engA (fun e => e.h 31 0 0 == 0xBF000000 && e.h 31 0 1 == 7) = true := by decide +kernel
theorem test_vmul : vecAfter (.vmul 0 0) (regWord 0x03 31 1 2 3) engA (fun e => e.h 31 0 0 == 0x40400000 && e.h 31 0 1 == 7) = true := by decide +kernel
theorem test_vfma : vecAfter (.vfma 0 0) (regWord 0x04 31 1 2 3) engA (fun e => e.h 31 0 0 == 0xBF800000 && e.h 31 0 1 == 7) = true := by decide +kernel
theorem test_vfms : vecAfter (.vfms 0 0) (regWord 0x05 31 1 2 3) engA (fun e => e.h 31 0 0 == 0x40E00000 && e.h 31 0 1 == 7) = true := by decide +kernel
theorem test_vmin : vecAfter (.vmin 0 0) (regWord 0x06 31 1 2 3) engA (fun e => e.h 31 0 0 == 0x3FC00000 && e.h 31 0 1 == 7) = true := by decide +kernel
theorem test_vmax : vecAfter (.vmax 0 0) (regWord 0x07 31 1 2 3) engA (fun e => e.h 31 0 0 == 0x40000000 && e.h 31 0 1 == 7) = true := by decide +kernel
theorem test_vabs : vecAfter (.vabs 0 0) (regWord 0x08 31 3 2 3) engA (fun e => e.h 31 0 0 == 0x40800000 && e.h 31 0 1 == 7) = true := by decide +kernel
theorem test_vneg : vecAfter (.vneg 0 0) (regWord 0x09 31 1 2 3) engA (fun e => e.h 31 0 0 == 0xBFC00000 && e.h 31 0 1 == 7) = true := by decide +kernel
theorem test_copysign : vecAfter (.copysign 0 0) (regWord 0x0A 31 1 3 3) engA (fun e => e.h 31 0 0 == 0xBFC00000 && e.h 31 0 1 == 7) = true := by decide +kernel
theorem test_vmov : vecAfter (.vmov 0 0) (regWord 0x0B 31 3 0 0) engA (fun e => e.h 31 0 0 == 0xC0800000 && e.h 31 0 1 == 7) = true := by decide +kernel
theorem test_sel : vecAfter (.sel 0 0) (regWord 0x18 31 1 2 5) engA (fun e => e.h 31 0 0 == 0x40000000 && e.h 31 0 1 == 7) = true := by decide +kernel
theorem test_exp2 : vecAfter (.exp2 0 0) (regWord 0x28 31 4 0 0) engA (fun e => e.h 31 0 0 == 0x41000000 && e.h 31 0 1 == 7) = true := by decide +kernel
theorem test_log2 : vecAfter (.log2 0 0) (regWord 0x29 31 5 0 0) engA (fun e => e.h 31 0 0 == 0x40400000 && e.h 31 0 1 == 7) = true := by decide +kernel
theorem test_rcp : vecAfter (.rcp 0 0) (regWord 0x2A 31 2 0 0) engA (fun e => e.h 31 0 0 == 0x3F000000 && e.h 31 0 1 == 7) = true := by decide +kernel
theorem test_rsqrt : vecAfter (.rsqrt 0 0) (regWord 0x2B 31 6 0 0) engA (fun e => e.h 31 0 0 == 0x3F000000 && e.h 31 0 1 == 7) = true := by decide +kernel
theorem test_sint : vecAfter (.sint 0 0) (regWord 0x2C 31 7 0 0) engA (fun e => e.h 31 0 0 == 0x00000000 && e.h 31 0 1 == 7) = true := by decide +kernel
theorem test_cost : vecAfter (.cost 0 0) (regWord 0x2D 31 7 0 0) engA (fun e => e.h 31 0 0 == 0x3F800000 && e.h 31 0 1 == 7) = true := by decide +kernel
theorem test_cmpeq : vecAfter (.cmpeq 0 0) (regWord 0x10 7 2 2 0) engA (fun e => e.mask 7 0 0 == true && e.mask 3 15 63 && e.mask 0 0 0) = true := by decide +kernel
theorem test_cmpne : vecAfter (.cmpne 0 0) (regWord 0x11 7 1 2 0) engA (fun e => e.mask 7 0 0 == true && e.mask 3 15 63 && e.mask 0 0 0) = true := by decide +kernel
theorem test_cmplt : vecAfter (.cmplt 0 0) (regWord 0x12 7 1 2 0) engA (fun e => e.mask 7 0 0 == true && e.mask 3 15 63 && e.mask 0 0 0) = true := by decide +kernel
theorem test_cmple : vecAfter (.cmple 0 0) (regWord 0x13 3 2 1 0) engA (fun e => e.mask 3 0 0 == false && e.mask 3 15 63 && e.mask 0 0 0) = true := by decide +kernel
theorem test_cmpun : vecAfter (.cmpun 0 0) (regWord 0x14 3 1 2 0) engA (fun e => e.mask 3 0 0 == false && e.mask 3 15 63 && e.mask 0 0 0) = true := by decide +kernel
theorem test_mand : vecAfter (.mand 0 0) (regWord 0x19 3 3 4 0) engA (fun e => e.mask 3 0 0 == false && e.mask 3 15 63 && e.mask 0 0 0) = true := by decide +kernel
theorem test_mor : vecAfter (.mor 0 0) (regWord 0x1A 7 3 4 0) engA (fun e => e.mask 7 0 0 == true && e.mask 3 15 63 && e.mask 0 0 0) = true := by decide +kernel
theorem test_mxor : vecAfter (.mxor 0 0) (regWord 0x1B 3 3 3 0) engA (fun e => e.mask 3 0 0 == false && e.mask 3 15 63 && e.mask 0 0 0) = true := by decide +kernel
theorem test_mnot : vecAfter (.mnot 0 0) (regWord 0x1C 7 4 0 0) engA (fun e => e.mask 7 0 0 == true && e.mask 3 15 63 && e.mask 0 0 0) = true := by decide +kernel
theorem test_mask_zero : vecAfter (.cmpeq 0 0) (regWord 0x10 0 2 1 0) engA (fun e => e == engA) = true := by decide +kernel
/-- Three columns of one row. -/
def engB : Engine := { engA with lcols := 3, v := [(512, 0x3F800000), (513, 0x40000000), (514, 0x40800000), (15873, 9)] }
theorem test_rsum : vecAfter (.rsum 0 0) (regWord 0x20 31 1 0 0) engB (fun e => e.h 31 0 0 == 0x40E00000 && e.h 31 0 1 == 9) = true := by decide +kernel
theorem test_rmax : vecAfter (.rmax 0 0) (regWord 0x21 31 1 0 0) engB (fun e => e.h 31 0 0 == 0x40800000 && e.h 31 0 1 == 9) = true := by decide +kernel
theorem test_cvt_widens : rmodeOf (vin (regWord 0x30 31 1 0 0) engA).rmode = some .rne ∧
    after (.cvt 0 0) (running (vec (regWord 0x30 31 1 0 0) 0) Core.reset { engA with v := [(512, 0x40003FC0)], lcols := 2 })
      (fun u => eng0 u fun e => e.h 31 0 0 == 0x3FC00000 && e.h 31 0 1 == 0x40000000) = true := by decide +kernel
theorem test_cvt_narrows : after (.cvt 0 0) (running (vec (regWord 0x30 31 1 0 0 ||| word [(1, 41), (1, 42)]) 0) Core.reset { engA with v := [(512, 0x3FC00000)], lcols := 33 })
    (fun u => eng0 u fun e => e.s 31 0 32 == 0x3FC0 && e.s 31 0 0 == 0) = true := by decide +kernel
theorem test_packed_places : (({ engA with v := [(512 * 31 + 32 * 15 + 31, 0xABCD1234)] } : Engine).s 31 15 62, ({ engA with v := [(512 * 31 + 32 * 15 + 31, 0xABCD1234)] } : Engine).s 31 15 63) =
    ((0x1234 : BitVec 16), (0xABCD : BitVec 16)) := by decide
theorem test_setlen : after (.setlen 0 0) (running (vec (word [(0x48, 0), (16, 8), (64, 13)]) 0) Core.reset engA) (fun u => eng0 u fun e => e.lrows == 16 && e.lcols == 64) = true := by decide
theorem test_setlen_bad : after (.setlen 0 0) (running (vec (word [(0x48, 0), (17, 8), (64, 13)]) 0) Core.reset engA)
    (fun u => (eng0 u fun e => e.lrows == 1) && u.work.kernels.any fun k => k.faults.map (·.code) == [7]) = true := by decide +kernel
theorem test_fget : after (.fget 0 0) (running (vec (word [(0x4A, 0), (15, 8)]) 0) Core.reset { engA with flags := 0x1F }) (fun u => eng0 u fun e => e.sc.getD 15 0 == 0x1F && e.flags == 0x1F) = true := by decide
theorem test_fclr : after (.fclr 0 0) (running (vec 0x4B 0) Core.reset { engA with flags := 0x1F }) (fun u => eng0 u fun e => e.flags == 0) = true := by decide
/-- A memory-form word for the cistern in H32. -/
def memWord (op vd base : Nat) : BitVec 64 := word [(op, 0), (vd, 8), (1, 13), (base, 20)]
theorem test_vld : (vin (memWord 0x38 31 0x3FFFFFC) engA).memFault = none ∧
    after (.vld 0 0) ((running (vec (memWord 0x38 31 0x3FFFFFC) 0) Core.reset engA).put (cisAddr 0 0x3FFFFFC) [1, 2, 3, 4])
      (fun u => eng0 u fun e => e.h 31 0 0 == 0x04030201 && e.h 31 0 1 == 7) = true := by decide +kernel
theorem test_vst : (vin (memWord 0x39 1 0x3FFFFFC) engA).memFault = none ∧
    after (.vst 0 0) (running (vec (memWord 0x39 1 0x3FFFFFC) 0) Core.reset engA) (fun u => u.bytesAt (cisAddr 0 0x3FFFFF8) 8 == [0, 0, 0, 0, 0, 0, 0xC0, 0x3F]) = true := by decide +kernel
/-- The state before VLDB or VSTB with descriptor `d` at cistern offset 4096. -/
def blkState (op : Nat) (d : Bytes) (e : Engine) : State :=
  (running (vec (word [(op, 0), (31, 8), (4096, 17)]) 0) Core.reset e).put (cisAddr 0 4096) d
/-- A block descriptor: elements at 64, scales at 0, record at 128, S8X. -/
def blkDesc (rec_ : Nat) : Bytes := toLE 4 (2 ^ 31 + 64) ++ toLE 4 0 ++ toLE 4 0 ++ toLE 4 1 ++ toLE 4 0 ++ toLE 4 rec_ ++ toLE 8 0
theorem test_vldb : accOk .vldb (blkDesc 0) = true ∧ (vin (word [(0x3A, 0), (31, 8), (4096, 17)]) engA).blkFit (slotAcc (blkDesc 0)) 1 = true ∧
    after (.vldb 0 0) (((blkState 0x3A (blkDesc 0) engA).put (cisAddr 0 64) [0x38]).put (cisAddr 0 0) [0x80]) (fun u => eng0 u fun e => e.h 31 0 0 == 0x40000000) = true := by decide +kernel
theorem test_vstb : accOk .vstb (blkDesc 128) = true ∧
    after (.vstb 0 0) (blkState 0x3B (blkDesc 128) { engA with lcols := 32, v := (List.range 32).map fun c => (15872 + c, 0x3F800000) })
      (fun u => u.bytesAt (cisAddr 0 64) 1 != [0] && u.bytesAt (cisAddr 0 96) 1 == [0] && path0 u fun x => x.vq == []) = true := by decide +kernel
theorem test_vstb_basin : let d := toLE 4 64 ++ toLE 4 0 ++ toLE 4 0 ++ toLE 4 1 ++ toLE 4 0 ++ toLE 4 128 ++ toLE 8 0
    let s := blkState 0x3B d { engA with lcols := 32, v := (List.range 32).map fun c => (15872 + c, 0x3F800000) }
    (slotAcc d).dest = false ∧ (slotAcc d).scaleAddr < (slotAcc d).addr ∧
    after (.vstb 0 0) s (fun u => u.byteAt (basAddr 0 0 64) != 0 && u.byteAt (basAddr 0 0 96) == 0 && u.byteAt (cisAddr 0 64) == 0) = true := by decide +kernel
theorem test_sld : after (.sld 0 0) (running (vec (word [(0x40, 0), (31, 8), (15, 13)]) 0) { coreA with given := List.replicate 16 true } engA)
    (fun u => eng0 u fun e => e.h 31 0 0 == 0x3FC00000 && e.h 31 0 1 == 7) = true := by decide +kernel
theorem test_sst : after (.sst 0 0) (running (vec (word [(0x41, 0), (2, 8), (15, 13), (15, 17), (7, 21)]) 0) { coreA with given := List.replicate 16 true } engA)
    (fun u => core0 u fun c => c.accAt 15 240 224 == 0x40000000 && c.accAt 15 0 0 == 0x3FC00000) = true := by decide +kernel
theorem test_slot_return : after (.slotReturn 0 0) (running (vec (word [(0x42, 0), (15, 13)]) 0) { coreA with given := List.replicate 16 true } engA)
    (fun u => core0 u fun c => !c.given.getD 15 true && c.given.getD 14 false) = true := by decide
theorem test_lds : after (.lds 0 0) ((running (vec (word [(0x4C, 0), (15, 8), (0x3FFFFFC, 17), (1, 43)]) 0) Core.reset engA).put (cisAddr 0 0x3FFFFFC) [1, 2, 3, 4])
    (fun u => eng0 u fun e => e.sc.getD 15 0 == 0x04030201) = true := by decide
theorem test_sts : after (.sts 0 0) (running (vec (word [(0x4D, 0), (15, 8), (0x3FFFFFC, 17), (1, 43)]) 0) Core.reset { engA with sc := List.replicate 16 0x11223344 })
    (fun u => u.bytesAt (cisAddr 0 0x3FFFFFC) 4 == [0x44, 0x33, 0x22, 0x11]) = true := by decide
theorem test_vctx : after (.vctx 0 0) ((running (vec (word [(0x49, 0), (0x3FFFFF4, 17)]) 0) Core.reset engA).put (cisAddr 0 0x3FFFFF4) [1, 2, 3, 4, 5, 6, 7, 8])
    (fun u => eng0 u fun e => e.tensorId == 0x04030201 && e.rowBase == 0x08070605) = true := by decide

/-! ### UPDATE and the norm ledger -/

/-- A momentum descriptor of one H32 element: planes at 0 and 4096, gradient at 8192, BETA1 1, LR 1, WD 0. -/
def updDesc (ledger : Nat) : Bytes :=
  toLE 1 2 ++ toLE 1 4 ++ toLE 1 ledger ++ toLE 1 0 ++ toLE 4 0 ++ toLE 2 0 ++ toLE 2 1 ++ toLE 4 1 ++ toLE 8 0 ++ toLE 8 4096 ++ toLE 8 8192 ++
    toLE 8 12288 ++ toLE 8 0 ++ toLE 4 0x3F800000 ++ toLE 4 0x3F800000 ++ zeros 64
/-- The state before UPDATE: w 3, m 1, gradient 1. -/
def updState (ledger : Nat) : State :=
  ((((running (vec (word [(0x50, 0), (0x3FFFF80, 17)]) 0) Core.reset engA).put (cisAddr 0 0x3FFFF80) (updDesc ledger)).put 0 [0, 0, 0x40, 0x40]).put 512
    [0, 0, 0x80, 0x3F]).put 8192 [0, 0, 0x80, 0x3F]
theorem test_update : let d := updOf (updDesc 0)
    (updState 0).mem.lineErr = [] ∧ updOk (updDesc 0) = true ∧ d.ranges.all (fun r => inPart ten false r.2.2 r.1 r.2.1 && decide (r.1 < hbmEnd)) = true ∧
    d.ranges.all (fun r => !hbmAny (updState 0).groupOff r.1 r.2.1 && !hbmAny (fun g => !(updState 0).groupReady g) r.1 r.2.1) = true ∧
    after (.update 0 0) (updState 0) (fun u => u.bytesAt 4096 4 == [0, 0, 0x80, 0x3F] && u.bytesAt 4608 4 == [0, 0, 0, 0x40] && u.bytesAt 0 4 == [0, 0, 0x40, 0x40]) = true := by decide +kernel
theorem test_ledger : after (.update 0 0) (updState 2) (fun u => after (.ledgerFold 0) u fun v =>
    leNat (v.bytesAt 12352 4) == 0 && leNat (v.bytesAt 12356 2) == 0xFFFF && leNat (v.bytesAt 12392 8) == 1 && v.tiles.all fun x => x.ledger.isEmpty) = true := by decide +kernel

/-! ### Movers -/

/-- The module with channel 7 of the hub mover, tenant 1's last, as `x`. -/
def hubChan (x : Chan) : State := base.onChan 8 7 fun _ => x
/-- An enabled channel. -/
def chanOn : Chan := { Chan.reset with enabled := true }
/-- A stopping channel. -/
def chanStop : Chan := { Chan.reset with enabled := true, stopping := true }
/-- Parameters that name that channel, `b` at bytes 18 and 19, then `l` from byte 24 on. -/
def chanPar (b : Nat) (l : Bytes) : Bytes := toLE 1 8 ++ toLE 1 7 ++ toLE 2 b ++ zeros 4 ++ l
/-- The hypotheses that the mover commands share. -/
def chanMeets (s : State) (op : Nat) (par : Bytes) (q : Cmd → Chan → Bool) : Bool :=
  meets (sent s op par) op .inline fun c s1 => s1.nameChan c == stOK && !s1.chanBlocked (c.f 16 1) (c.f 17 1) && (s1.chan? (c.f 16 1) (c.f 17 1)).any (q c)
/-- MOVE of 65,536 descriptors at 4096; FILL of 2^40 bytes at 8192 with 8-byte words; COMPARE of 2^40 bytes at 0 and 2^40. -/
def movePar : Bytes := chanPar 0 (toLE 8 4096 ++ toLE 4 65536)
def fillPar : Bytes := chanPar 8 (toLE 8 8192 ++ toLE 8 (2 ^ 40) ++ toLE 8 0x1122334455667788)
def comparePar : Bytes := chanPar 0 (toLE 8 0 ++ toLE 8 (2 ^ 40) ++ toLE 8 (2 ^ 40))

theorem test_wrong_state_move : chanMeets (hubChan Chan.reset) 0x0201 movePar (fun c x => !x.stopping && !x.enabled && c.z 18 6 && c.z 36 28 && c.f 32 4 == 65536) = true ∧
    after (.moveCmd 0 0) (sent (hubChan Chan.reset) 0x0201 movePar) (fun u => replied u == [4, 7, 0, 0, 0]) = true ∧
    after (.moveCmd 0 0) (sent (hubChan chanStop) 0x0201 movePar) (fun u => replied u == [5, 7, 0, 0, 0]) = true := by decide +kernel
theorem test_wrong_state_fill : chanMeets (hubChan Chan.reset) 0x0202 fillPar (fun c x => !x.stopping && !x.enabled && c.z 19 5 && c.z 48 16 && c.f 18 1 == 8 && c.f 32 8 == 2 ^ 40) = true ∧
    after (.fillCmd 0 0) (sent (hubChan Chan.reset) 0x0202 fillPar) (fun u => replied u == [4, 7, 0, 0, 0]) = true ∧
    after (.fillCmd 0 0) (sent (hubChan chanStop) 0x0202 fillPar) (fun u => replied u == [5, 7, 0, 0, 0]) = true := by decide +kernel
theorem test_wrong_state_compare : chanMeets (hubChan Chan.reset) 0x0203 comparePar (fun c x => !x.stopping && !x.enabled && c.z 18 6 && c.z 48 16 && c.f 40 8 == 2 ^ 40) = true ∧
    after (.compareCmd 0 0) (sent (hubChan Chan.reset) 0x0203 comparePar) (fun u => replied u == [4, 7, 0, 0, 0]) = true ∧
    after (.compareCmd 0 0) (sent (hubChan chanStop) 0x0203 comparePar) (fun u => replied u == [5, 7, 0, 0, 0]) = true := by decide +kernel
theorem test_wrong_state_enable : chanMeets (hubChan chanOn) 0x0205 (chanPar 0xFF00 []) (fun c x => !x.stopping && x.enabled && c.z 18 1 && c.z 20 44 && c.f 19 1 == 0xFF) = true ∧
    after (.channelEnable 0 0) (sent (hubChan chanOn) 0x0205 (chanPar 0xFF00 [])) (fun u => replied u == [0, 7, 0, 0, 0] && u.chan? 8 7 == some chanOn) = true := by decide +kernel
theorem test_wrong_state_disable : chanMeets (hubChan Chan.reset) 0x0206 (chanPar 0 []) (fun c x => !x.stopping && !x.enabled && c.z 18 46) = true ∧
    after (.channelDisable 0 0) (sent (hubChan Chan.reset) 0x0206 (chanPar 0 [])) (fun u => replied u == [0, 7, 0, 0, 0]) = true := by decide +kernel
theorem test_fence : meets (sent base 0x0204 []) 0x0204 .inline (fun c s1 => c.z 16 48 && !s1.ringBusy 0 0) = true ∧
    after (.fenceCmd 0 0) (sent base 0x0204 []) (fun u => replied u == [0, 7, 0, 0, 0]) = true := by decide +kernel
/-- A running command of ring 0. -/
def runCmd (op : Nat) (w : Wait) : RunCmd :=
  { uid := 0, att := 0, ring := 0, loc := .hub 0 0, opcode := BitVec.ofNat 16 op, seq := 7, irq := false, tenant := 1, timeoutMs := 0, timedOut := false, wait := w }
/-- The state with that command in flight. -/
def busy (s : State) (op : Nat) (w : Wait) : State := { s with host := { s.host with running := [runCmd op w] } }
theorem test_fence_waits : meets (sent (busy base 0x0204 .fence) 0x0204 []) 0x0204 .inline (fun _ s1 => s1.ringBusy 0 0) = true ∧
    after (.fenceCmd 0 0) (sent (busy base 0x0201 (.mover 8 7)) 0x0204 []) (fun u => waits u == [.mover 8 7, .fence]) = true := by decide +kernel
/-- What the command that launched the kernel replies. -/
theorem test_kernel_end_replies : let s := fun x k => let r := busy (runs x) 0x0107 (.kernel 9)
      { r with work := { r.work with kernels := [k] }, clk := { r.clk with nowUs := 60000000 } }
    let f := fun c p => ({ code := c, ltile := 0, pair := p, bundle := 2, status := 0 } : KFault)
    after (.kernelEnd 9) (s { pathA with ended := true } kern) (fun u => replied u == [0, 7, 0, 0, 60000000]) = true ∧
    after (.kernelEnd 9) (s pathA { kern with faults := [f 7 1, f 3 0] }) (fun u => replied u == [stBadParam, 7, 0x20003, 0, 60000000 + 2 ^ 32]) = true ∧
    after (.deadlock 9) (s { pathA with prog := [bundle (word [(0x02, 0), (255, 6), (8, 14)]) 0 0 0] } kern) (fun u => replied u == [stAborted, 7, 0x11, 0, 60000000]) = true ∧
    after (.runLimit 9) (s pathA kern) (fun u => replied u == [stAborted, 7, 0x12, 0, 60000000]) = true := by decide +kernel
theorem test_move : meets (sent (hubChan chanOn) 0x0201 movePar) 0x0201 .inline
      (fun c s1 => (s1.tenant? c.tenant).any fun t => inPart t false true (c.f 24 8) (64 * c.f 32 4)) = true ∧
    after (.moveCmd 0 0) (sent (hubChan chanOn) 0x0201 movePar) (fun u => waits u == [.mover 8 7] &&
      (u.chan? 8 7).any fun x => x.reqs.map (fun r => (r.base, r.count)) == [(some 4096, 65536)]) = true := by decide +kernel
theorem test_fill : after (.fillCmd 0 0) (sent (hubChan chanOn) 0x0202 fillPar) (fun u => waits u == [.mover 8 7] &&
    (u.chan? 8 7).any fun x => x.reqs.map (fun r => (r.gen.map fun b => (descOf b).bytes).sum) == [2 ^ 40]) = true := by decide +kernel
theorem test_compare : after (.compareCmd 0 0) (sent (hubChan chanOn) 0x0203 comparePar) (fun u => waits u == [.mover 8 7] &&
    (u.chan? 8 7).any fun x => x.reqs.map (fun r => (r.gen.map fun b => ((descOf b).src, (descOf b).dst, (descOf b).bytes))) == [[(0, 2 ^ 40, 2 ^ 40)]]) = true := by decide +kernel
theorem test_enable : after (.channelEnable 0 0) (sent (hubChan Chan.reset) 0x0205 (chanPar 0x0800 []))
    (fun u => replied u == [0, 7, 0, 0, 0] && u.chan? 8 7 == some { chanOn with vector := 8 }) = true := by decide +kernel
/-- A COPY of 16 bytes from 0 to 4096, and a request of the running command for it. -/
def copyDesc (op : Nat) (dst : Nat) : Bytes := genDesc op 0 0 0 16 0 dst 0 0 0
def oneReq (b : Bytes) : Req := newReq (.command 0 1) none [b] 1
/-- The descriptor in progress. -/
def actOf (b : Bytes) (pos : Nat) : Active := { newAct (descOf b) stOK true with pos := pos }
theorem test_disable : after (.channelDisable 0 0) (sent (hubChan chanOn) 0x0206 (chanPar 0 [])) (fun u => replied u == [0, 7, 0, 0, 0] && u.chan? 8 7 == some Chan.reset) = true ∧
    after (.channelDisable 0 0) (sent (hubChan { chanOn with reqs := [oneReq (copyDesc 1 4096)], act := some (actOf (copyDesc 1 4096) 0) }) 0x0206 (chanPar 0 []))
      (fun u => waits u == [.chanStop 8 7] && (u.chan? 8 7).any (·.stopping)) = true := by decide +kernel
/-- Channel 7 with a request whose descriptor `b` is next. -/
def descNext (b : Bytes) : State := hubChan { chanOn with reqs := [oneReq b] }
theorem test_desc_starts : (∀ op ∈ [1, 3], descOk (copyDesc op 4096) = true ∧ (descNext (copyDesc op 4096)).descStatus2 (.command 0 1) true (descOf (copyDesc op 4096)) = stOK ∧
      (descNext (copyDesc op 4096)).descStatus4 (descOf (copyDesc op 4096)) [] = stOK) ∧
    (descNext (copyDesc 1 4096)).nextDesc 8 7 { chanOn with reqs := [oneReq (copyDesc 1 4096)] } (oneReq (copyDesc 1 4096)) (copyDesc 1 4096) ∧
    after (.copy 8 7) (descNext (copyDesc 1 4096)) (fun u => (u.chan? 8 7).any fun x => x.act == some (actOf (copyDesc 1 4096) 0)) = true := by
  unfold State.nextDesc; decide +kernel
theorem test_desc_compare : after (.compareDescriptor 8 7) (descNext (copyDesc 3 4096)) (fun u => (u.chan? 8 7).any fun x => x.act == some (actOf (copyDesc 3 4096) 0)) = true := by decide +kernel
theorem test_desc_fill : descOk (genDesc 2 0 0 8 16 5 4096 0 0 0) = true ∧
    after (.fillDescriptor 8 7) (descNext (genDesc 2 0 0 8 16 5 4096 0 0 0)) (fun u => (u.chan? 8 7).any fun x => x.act == some (actOf (genDesc 2 0 0 8 16 5 4096 0 0 0) 0)) = true := by decide +kernel
theorem test_desc_bad : (∀ op ∈ [1, 3], descOk (genDesc op 0 0 8 16 0 4096 0 0 0) = false) ∧ descOk (genDesc 2 0 0 3 16 0 4096 0 0 0) = false ∧ descOk (genDesc 4 0 0 0 16 0 4096 0 0 0) = false ∧
    after (.copy 8 7) (descNext (genDesc 1 0 0 8 16 0 4096 0 0 0)) (fun u => (u.chan? 8 7).any fun x => x.act.any fun a => a.status == stBadParam) = true := by decide +kernel
/-- A GATHER of one element of 16 bytes, index list at 8192. -/
def gatherDesc : Bytes := toLE 1 4 ++ zeros 7 ++ toLE 8 0 ++ toLE 8 4096 ++ zeros 8 ++ toLE 8 8192 ++ toLE 4 1 ++ toLE 4 16 ++ zeros 16
theorem test_gather : let s := (descNext gatherDesc).put 8192 [2]
    let v := s.setAct 8 7 (newAct (descOf gatherDesc) stOK false)
    descOk gatherDesc = true ∧ s.descStatus2 (.command 0 1) true (descOf gatherDesc) = stOK ∧ v.moverGet 8 (.command 0 1) 8192 4 = (v, .data [2, 0, 0, 0]) ∧
    v.rangesStatus (.command 0 1) true false ((descOf gatherDesc).srcRanges [2, 0, 0, 0]) = stOK ∧ v.descStatus4 (descOf gatherDesc) [2, 0, 0, 0] = stOK ∧
    after (.gather 8 7) s (fun u => (u.chan? 8 7).any fun x => x.act == some { actOf gatherDesc 0 with list := [2, 0, 0, 0] }) = true := by decide +kernel
/-- Channel 7 with `b` in progress, `pos` bytes issued, and bytes 1, 2, 3 at 0. -/
def inProgress (b : Bytes) (pos : Nat) : State :=
  (hubChan { chanOn with reqs := [oneReq b], act := some (actOf b pos) }).put 0 [1, 2, 3]
theorem test_burst_copy : (inProgress (copyDesc 1 4096) 0).burstReady 8 7 = some (oneReq (copyDesc 1 4096), actOf (copyDesc 1 4096) 0) ∧
    (actOf (copyDesc 1 4096) 0).next = (0, 4096, 16) ∧ (inProgress (copyDesc 1 4096) 0).placeOf 4096 16 = .loc 4096 ∧
    (inProgress (copyDesc 1 4096) 0).mustWait 4096 16 = false ∧ (inProgress (copyDesc 1 4096) 0).lockOn 4096 16 = none ∧
    after (.burstIssue 8) (inProgress (copyDesc 1 4096) 0) (fun u => u.bytesAt 4096 4 == [1, 2, 3, 0] && (u.chan? 8 7).any fun x => x.act.any fun a => a.pos == 16) = true := by decide +kernel
theorem test_burst_fill : after (.burstIssue 8) (inProgress (genDesc 2 0 0 8 16 0x0807060504030201 4088 0 0 0) 0)
    (fun u => u.bytesAt 4088 9 == [1, 2, 3, 4, 5, 6, 7, 8, 0] && (u.chan? 8 7).any fun x => x.act.any fun a => a.pos == 8) = true := by decide +kernel
theorem test_burst_compare : after (.burstIssue 8) (inProgress (copyDesc 3 4096) 0)
    (fun u => u.bytesAt 4096 3 == [0, 0, 0] && (u.chan? 8 7).any fun x => x.act.any fun a => a.mism == 3 && a.first == some 0) = true := by decide +kernel
theorem test_desc_complete : let a : Active := { actOf (copyDesc 3 4096) 16 with mism := 3, first := some 2 }
    let s := busy (hubChan { chanOn with reqs := [oneReq (copyDesc 3 4096)], act := some a }) 0x0203 (.mover 8 7)
    a.total = 16 ∧ after (.descriptorComplete 8 7) s (fun u => replied u == [0x11, 7, 3, 2, 0] && u.chan? 8 7 == some chanOn) = true := by decide +kernel
theorem test_desc_complete_next : let s := hubChan { chanOn with reqs := [newReq (.command 0 1) (some 8192) [] 2], act := some (actOf (copyDesc 1 4096) 16) }
    after (.descriptorComplete 8 7) (s.put 8241 [1]) (fun u => u.bytesAt 8240 2 == [0, 0] && (u.chan? 8 7).any fun x => x.act.isNone && x.reqs.map (·.done) == [1]) = true := by decide +kernel

/-! ### The move slot -/

/-- A path whose move queue starts with `w`. -/
def mov (w : BitVec 64) : Path := { pathA with xq := [item w 0] }
/-- The hypotheses on a move-slot instruction, for every word. -/
theorem test_move_slot_held (op : Nat) (w : BitVec 64) (h : wf w 5 0 = op) : (runs (mov w)).movHeld 0 0 op kern (mov w) (item w 0) :=
  ⟨rfl, rfl, rfl, (by decide : (runs pathA).issues 0 = true), rfl, h⟩
theorem test_movd : inMem (item (word [(1, 0), (48, 6), (0x3FFFFC0, 16), (1, 61)]) 0).desc 64 64 cisBytes = true ∧
    after (.movd 0 0) (runs (mov (word [(1, 0), (48, 6), (0x3FFFFC0, 16)]))) (fun u => path0 u (fun x => x.xq == [] && x.moves.length == 1) && (u.chan? 0 48).any fun c => c.reqs.length == 1) = true ∧
    after (.movd 0 0) (runs (mov (word [(1, 0), (49, 6)]))) (fun u => u.work.kernels.any fun k => k.faults.map (·.code) == [0x0D]) = true := by decide +kernel
theorem test_xexp : after (.xexp 0 0) (runs (mov (word [(2, 0), (0x3FFFF80, 16)]))) (fun u => path0 u (fun x => x.xq == [] && x.moves.length == 1) && (u.tiles[0]?).any fun x => x.xu.length == 1 && x.spw.isEmpty) = true := by decide +kernel
theorem test_spill : after (.spill 0 0) (runs (mov (word [(3, 0), (0x3FFFF80, 16)]))) (fun u => path0 u (fun x => x.xq == []) && (u.tiles[0]?).any fun x => x.spw.length == 1 && x.xu.isEmpty) = true := by decide +kernel

/-! ### The XU and the spillway engine -/

/-- A request of one descriptor at cistern offset 0, of path 0. -/
def unitR : UnitReq := { t := 0, p := 0, seq := 5, bundle := 0, kid := 9, base := 0, count := 1, done := 0 }
/-- Tile 0 with a request at its XU, the descriptor `b` and the bytes `img` at HBM address 0. -/
def xuState (b img : Bytes) : State :=
  (((runs { pathA with moves := [{ seq := 5, bundle := 0, sig := some (1, 3) }] }).onTile 0 fun x => { x with xu := [unitR] }).put (cisAddr 0 0) b).put 0 img
/-- An expansion command of one tap and one channel on a one-pixel image at 0, output, OUTPUT_AUX and IH_CNT as given. -/
def xcmd (op fmt ctl out outAux ih : Nat) : Bytes :=
  toLE 1 op ++ toLE 1 fmt ++ toLE 1 0 ++ toLE 1 ctl ++ toLE 4 0x100 ++ toLE 8 0 ++ toLE 8 0 ++ toLE 8 out ++ toLE 8 outAux ++ toLE 4 64 ++ toLE 4 0 ++ toLE 4 64 ++
    toLE 4 (if outAux = 0 then 0 else 64) ++
    toLE 2 1 ++ toLE 2 1 ++ toLE 2 1 ++ toLE 1 1 ++ toLE 1 1 ++ toLE 1 1 ++ toLE 1 1 ++ toLE 1 1 ++ toLE 1 1 ++ zeros 16 ++ toLE 2 1 ++ toLE 2 1 ++
    toLE 2 0 ++ toLE 2 ih ++ toLE 2 0 ++ zeros 34
/-- The hypotheses on a command that runs. -/
def xuRuns (b img : Bytes) : Bool :=
  let s := xuState b img
  let d := xcmdOf b
  let its := d.items s 0
  xcmdOk b && s.bytesAt (cisAddr 0 0) 128 == b && d.status s 0 (.path 0 0 5 0 9) its == stOK &&
  !s.faulted (.path 0 0 5 0 9) && !s.blocked 4 0 0 && (d.lists ++ its.flatMap (·.reads) ++ its.flatMap (·.dst)).all (fun q =>
    decide (q.1 < 2 ^ 63) && !s.mustWait q.1 q.2 && (s.lockOn q.1 q.2).isNone) &&
  d.idxPlane.all fun q => (List.range d.c).all fun c => decide (s.xuNum 0 (q.1 + 2 * c) 2 < d.y.k * d.x.k)
/-- The command ends OK and a test holds. -/
def xuAfter (i : Instr) (b img : Bytes) (q : State → Bool) : Bool :=
  xuRuns b img && after i (xuState b img) fun u => ((u.tiles[0]?).any fun x => x.xuDone.any fun e => e.status == stOK) && q u
theorem test_expand : xuAfter (.expand 0) (xcmd 1 3 0 (cisAddr 0 4096) 0 0) [0x80, 0x3F] (fun u => u.bytesAt (cisAddr 0 4096) 33 == [0x80, 0x3F] ++ zeros 31) = true := by decide +kernel
theorem test_fold : xuAfter (.foldGrad 0) (xcmd 2 4 0 32 0 1) (zeros 32 ++ [0, 0, 0x80, 0x3F]) (fun u => u.bytesAt 0 5 == [0, 0, 0x80, 0x3F, 0]) = true := by decide +kernel
theorem test_pool_max : xuAfter (.poolMax 0) (xcmd 3 4 4 4096 8192 0) [0, 0, 0x80, 0x3F] (fun u => u.bytesAt 4096 4 == [0, 0, 0x80, 0x3F] && u.bytesAt 8192 2 == [0, 0]) = true := by decide +kernel
theorem test_pool_avg : xuAfter (.poolAvg 0) (xcmd 4 3 2 4096 0 0) [0x80, 0x3F] (fun u => u.bytesAt 4096 3 == [0x80, 0x3F, 0]) = true := by decide +kernel
theorem test_pool_grad : xuAfter (.poolGrad 0) (xcmd 5 4 4 32 8192 1) (zeros 32 ++ [0, 0, 0x80, 0x3F]) (fun u => u.bytesAt 0 4 == [0, 0, 0x80, 0x3F]) = true := by decide +kernel
/-- CROP_RESIZE of the whole image to one pixel, the box list at 8192. -/
def cropCmd : Bytes := toLE 1 6 ++ toLE 1 0x44 ++ toLE 2 0 ++ toLE 4 0x100 ++ toLE 8 0 ++ toLE 8 8192 ++ toLE 8 4096 ++ toLE 8 0 ++ toLE 4 64 ++ toLE 4 0 ++ toLE 4 64 ++
  toLE 4 0 ++ toLE 2 1 ++ toLE 2 1 ++ toLE 2 1 ++ zeros 14 ++ zeros 8 ++ toLE 2 1 ++ toLE 2 1 ++ zeros 4 ++ toLE 2 1 ++ zeros 34
theorem test_crop_hyps : let s := xuState cropCmd [0, 0, 0x80, 0x3F]
    xcmdOk cropCmd = true ∧ s.bytesAt (cisAddr 0 0) 128 = cropCmd ∧ (xcmdOf cropCmd).status s 0 (.path 0 0 5 0 9) ((xcmdOf cropCmd).items s 0) = stOK := by decide +kernel
theorem test_crop : after (.cropResize 0) (xuState cropCmd [0, 0, 0x80, 0x3F])
    (fun u => ((u.tiles[0]?).any fun x => x.xuDone.any fun e => e.status == stOK) && u.bytesAt 4096 4 == [0, 0, 0x80, 0x3F]) = true := by decide +kernel
theorem test_expand_bad : (∀ op ∈ [1, 2, 3, 4, 5, 6], xcmdOk (xcmd op 5 0 4096 0 0) = false) ∧
    after (.expand 0) (xuState (xcmd 1 5 0 4096 0 0) []) (fun u => (u.tiles[0]?).any fun x => x.xuDone.any fun e => e.status == stBadParam) = true := by decide +kernel
theorem test_expand_denied : let b := xcmd 1 3 0 0xF20000000000 0 0
    xcmdOk b = true ∧ after (.expand 0) (xuState b []) (fun u => (u.tiles[0]?).any fun x => x.xuDone.any fun e => e.status == stDenied) = true := by decide +kernel
/-- What a unit has finished. -/
def doneA : UnitDone := { status := 0, omitted := 2, dropped := true, maxError := 5, escaped := 6, streamBytes := 7, op := 1 }
theorem test_xu_complete : after (.expansionComplete 0) ((xuState (xcmd 1 3 0 (cisAddr 0 4096) 0 0) []).onTile 0 fun x => { x with xuDone := some doneA })
    (fun u => u.bytesAt (cisAddr 0 4) 4 == [0, 0, 2, 0] && ((u.tiles[0]?).any fun x => x.xu == [] && x.xuDone.isNone) &&
      path0 u fun x => x.sigs.map (fun g => (g.ttile, g.token)) == [(1, 3)]) = true := by decide +kernel
theorem test_spw_complete : after (.spillwayComplete 0) ((xuState (zeros 5 ++ [1]) []).onTile 0 fun x => { x with xu := [], spw := [unitR], spwDone := some doneA })
    (fun u => u.bytesAt (cisAddr 0 4) 4 == [0, 0, 1, 0] && u.bytesAt (cisAddr 0 96) 8 == [5, 0, 0, 0, 6, 0, 0, 0] && u.bytesAt (cisAddr 0 120) 1 == [7] &&
      path0 u fun x => x.sigs.map (fun g => (g.ttile, g.token)) == [(1, 3)]) = true := by decide +kernel

/-- A tensor descriptor of one row of two S16 elements (32 when bounded): operation, mode, formats, source, destination, stream. -/
def tdesc (op fm mode cols src dst stream cap sp dp : Nat) (tail : Bytes) : Bytes :=
  toLE 1 op ++ toLE 1 fm ++ toLE 1 mode ++ zeros 2 ++ toLE 1 1 ++ zeros 2 ++ toLE 4 77 ++ toLE 2 1 ++ toLE 2 1 ++ toLE 4 1 ++ toLE 4 cols ++ toLE 8 src ++
    toLE 4 sp ++ toLE 4 dp ++ toLE 8 0 ++ toLE 8 dst ++ toLE 8 0 ++ toLE 8 stream ++ toLE 8 cap ++ zeros 24 ++ tail ++ zeros (24 - tail.length)
/-- Tile 0 with a request at its spillway engine. -/
def spwState (b img : Bytes) : State := ((xuState b img).onTile 0 fun x => { x with xu := [], spw := [unitR] })
/-- The hypotheses on a tensor descriptor that runs. -/
def spwRuns (s : State) (b : Bytes) : Bool :=
  let d := tdescOf b
  !s.faulted (.path 0 0 5 0 9) && !s.blocked 5 0 0 && s.bytesAt (cisAddr 0 0) 128 == b && tdescOk b && s.spwInside 1 false d.reads && s.spwInside 1 true d.writes && d.consistent &&
  (d.reads ++ d.writes).all fun q => !hbmAny s.groupOff q.1 q.2 && !s.mustWait q.1 q.2 && (s.lockOn q.1 q.2).isNone
/-- SAVE of the row [1.0, 2.0] to a stream at 4096. -/
def saveD : Bytes := tdesc 1 3 0 2 0 0 4096 256 64 0 []
theorem test_save : spwRuns (spwState saveD [0x80, 0x3F, 0x00, 0x40]) saveD = true ∧ (tdescOf saveD).report = 0 ∧ (tdescOf saveD).fixed = 128 ∧
    (losslessRecord .s16 [0x3F80, 0x4000]).length = 16 := by decide +kernel
/-- RESTORE of that stream to 8192: the record is the two planes' values written raw. -/
def restoreD : Bytes := tdesc 2 3 0 2 0 8192 4096 0 0 64 (toLE 2 0 ++ toLE 2 1 ++ toLE 4 0 ++ toLE 4 1)
/-- The state with the stream in memory: its header, its index, its record. -/
def restoreS (st : Nat) : State :=
  (((spwState restoreD []).put 4096 (streamHeader (tdescOf restoreD) st 0 144 0)).put 4160 (toLE 4 8)).put 4224 (losslessRecord .s16 [0x3F80, 0x4000])
theorem test_restore : spwRuns (restoreS 2) restoreD = true ∧ headerOk (tdescOf restoreD) 0 ((restoreS 2).bytesAt 4096 64) = true ∧
    (restoreS 2).spwInside 1 false [(4096, 144)] = true ∧ anyOverlap [(4096, 144)] (tdescOf restoreD).writes = false ∧
    hbmAny (restoreS 2).groupOff 4096 144 = false ∧ (restoreS 2).mustWait 4096 144 = false ∧
    after (.restoreStream 0) (restoreS 2) (fun u => ((u.tiles[0]?).any fun x => x.spwDone.any fun e => e.status == stOK) && u.bytesAt 8192 4 == [0x80, 0x3F, 0x00, 0x40]) = true := by decide +kernel
theorem test_restore_dropped : headerOk (tdescOf restoreD) 0 ((restoreS 3).bytesAt 4096 64) = true ∧
    after (.restoreStream 0) (restoreS 3) (fun u => ((u.tiles[0]?).any fun x => x.spwDone.any fun e => e.status == stOK && e.dropped) && u.bytesAt 8192 4 == zeros 4) = true := by decide +kernel
/-- ROUNDTRIP of a row of 32 through S8X under a bound of 1. -/
def roundD : Bytes := toLE 92 (fld (tdesc 3 0x13 1 32 0 8192 0 0 64 64 []) 0 92) ++ toLE 4 0x3F800000 ++ zeros 32
theorem test_roundtrip : spwRuns (spwState roundD [0x80, 0x3F, 0x00, 0x40]) roundD = true ∧
    after (.roundtrip 0) (spwState roundD [0x80, 0x3F, 0x00, 0x40]) (fun u => ((u.tiles[0]?).any fun x => x.spwDone.any fun e => e.status == stOK && e.escaped == 0) &&
      u.bytesAt 8192 6 == [0x80, 0x3F, 0x00, 0x40, 0, 0]) = true := by decide +kernel
theorem test_tensor_bad : (∀ op ∈ [1, 2, 3], tdescOk (tdesc op 3 0 0 0 0 4096 256 64 0 []) = false) ∧
    after (.saveStream 0) (spwState (tdesc 1 3 0 0 0 0 4096 256 64 0 []) []) (fun u => (u.tiles[0]?).any fun x => x.spwDone.any fun e => e.status == stBadParam) = true := by decide +kernel
theorem test_rows_come_back : decodeLossless .s4 33 (losslessRecord .s4 ((List.range 33).map (· % 16))) = some ((List.range 33).map (· % 16)) ∧
    decodeLossless .h32 2 (losslessRecord .h32 [0xFFFFFFFF, 0]) = some [0xFFFFFFFF, 0] ∧
    decodeBounded .s16 .s4 1 (boundedRecord (rowBlocks .s16 .s4 .rne 0 ((List.range 32).map (0x3F80 + ·)) (List.replicate 32 0))) =
      some ((rowBlocks .s16 .s4 .rne 0 ((List.range 32).map (0x3F80 + ·)) (List.replicate 32 0)).flatMap (·.back)) := by decide +kernel

/-! ### The margin governor, telemetry and memory health -/

/-- Sensor readings. -/
def sense (slack floor : Nat) (tj : Int) : Sensors :=
  { slack := slack, floorMv := floor, tj := tj, currentMa := 0, inputMw := 0, inputMv := 54000, powerMw := 9, beat := List.replicate 61 1000, vRated := 720 }
/-- Tile 7's governor afterwards. -/
def gov7 (u : State) (q : Gov → Bool) : Bool := (u.tiles[7]?).any fun x => q x.gov
/-- The module with tile 7's governor as `g`. -/
def withGov (g : Gov) : State := base.onGov 7 fun _ => g
/-- A governor that has its floor. -/
def gov0 : Gov := { Gov.reset with floorSet := true }
theorem test_loop_hyps : base.tileOn 7 = true ∧ ((withGov gov0).tiles[7]?).any (fun y => y.gov.floorSet) = true := by decide
theorem test_loop_lowers : after (.governorLoop 7 (sense 16 550 1001)) (withGov { gov0 with policy := { mode := 0, marginAdd := 0, target := 550 } })
    (fun u => gov7 u fun g => g.rail == 745 && g.vThermal == 745 && !g.emergency && g.applied == 560 && g.tj == 1001 && g.minSlack == 16) = true := by decide +kernel
theorem test_loop_floor : after (.governorLoop 7 (sense 40 850 971)) (withGov gov0)
    (fun u => gov7 u fun g => g.floorFence && g.applied == 850 && g.rail == 755 && g.vThermal == 850) = true := by decide +kernel
theorem test_loop_emergency : after (.governorLoop 7 (sense 15 550 0)) (withGov gov0) (fun u => gov7 u fun g => g.emergency && g.rail == 770) = true := by decide +kernel
theorem test_loop_recovers : after (.governorLoop 7 (sense 32 550 0)) (withGov { gov0 with emergency := true })
    (fun u => gov7 u fun g => !g.emergency && g.heldFloor == some 750 && g.emergCount == 1) = true ∧
    after (.governorLoop 7 (sense 31 550 0)) (withGov { gov0 with emergency := true }) (fun u => gov7 u fun g => g.emergency && g.rail == 755) = true := by decide +kernel
theorem test_slack_emergency : after (.slackEmergency 7) (withGov { gov0 with rail := 840 }) (fun u => (gov7 u fun g => g.emergency && g.rail == 850) && !u.issues 7) = true := by decide
theorem test_floor_hold : after (.floorHoldExpiry 7) (withGov { gov0 with heldFloor := some 700 }) (fun u => gov7 u fun g => g.heldFloor.isNone) = true := by decide
theorem test_floor_measure : after (.floorMeasure 7 840) (withGov { gov0 with floorSet := false }) (fun u => gov7 u fun g => g.floorSet && !g.floorFence && g.sentinelFloor == 840) = true ∧
    after (.floorMeasure 7 845) (withGov { gov0 with floorSet := false }) (fun u => (gov7 u fun g => g.floorSet && g.floorFence) && u.tel.events.map (·.code) == [5]) = true := by decide +kernel
theorem test_ageing_held : base.tileRuns 7 = true ∧
    after (.ageingMeasurement (List.replicate 8 700) true) { base with tiles := base.tiles.map fun x => { x with gov := { gov0 with floorSet := false } } } (fun u => gov7 u fun g => g.ageDue && g.vRated == 720) = true := by decide +kernel
theorem test_ageing : base.tiles[7]? = some tile0 ∧ (List.replicate 8 700)[7]? = some 700 ∧ ageGuard 720 720 = 10 ∧ ageGuard 721 720 = 15 ∧ ageGuard 741 720 = 20 := by decide
theorem test_power_cap : meets (sent base 0x0701 (toLE 4 600)) 0x0701 .inline (fun c s1 => c.z 20 44 && c.f 16 4 == 600 && s1.holdsAll c.tenant) = true ∧
    after (.powerCap 0 0) (sent base 0x0701 (toLE 4 600)) (fun u => replied u == [0, 7, 600, 0, 0] && u.tel.powerCap == 600) = true ∧
    after (.powerCap 0 0) (sent { base with tel := { base.tel with capLive := 3999 } } 0x0701 (toLE 4 4000)) (fun u => replied u == [0x10, 7, 3999, 0, 0]) = true := by decide +kernel
/-- Tenant 1 without tile 7. -/
def lacking : State := { base with host := { base.host with tenants := [{ ten with tiles := 0x7F }] } }
theorem test_power_cap_denied : meets (sent lacking 0x0701 (toLE 4 600)) 0x0701 .inline (fun c s1 => !s1.holdsAll c.tenant) = true ∧
    after (.powerCap 0 0) (sent lacking 0x0701 (toLE 4 600)) (fun u => replied u == [0x13, 7, 0, 0, 0]) = true := by decide +kernel
theorem test_policy_voltage : let par := toLE 1 0x80 ++ toLE 1 0 ++ toLE 2 100 ++ toLE 4 850
    meets (sent base 0x0703 par) 0x0703 .inline (fun c s1 => c.z 24 40 && c.f 18 2 == 100 && c.f 20 4 == 850 && s1.holdsMask c.tenant (c.f 16 1)) = true ∧
    after (.operatingPolicy 0 0) (sent base 0x0703 par) (fun u => waits u == [.policy 0x80] && gov7 u fun g => g.policy.target == 850) = true := by decide +kernel
theorem test_policy_rate : let par := toLE 1 0 ++ toLE 1 1 ++ toLE 2 0 ++ toLE 4 3200
    meets (sent base 0x0703 par) 0x0703 .inline (fun c s1 => c.f 17 1 == 1 && c.f 20 4 == 3200 && s1.holdsMask c.tenant (c.f 16 1)) = true ∧
    after (.operatingPolicy 0 0) (sent base 0x0703 par) (fun u => replied u == [0, 7, 0, 0, 0]) = true := by decide +kernel
theorem test_telemetry_stop : after (.telemetryRead 0 0) (sent { base with host := { base.host with tenants := [{ ten with telemDest := some 0 }] } } 0x0006 (toLE 8 0 ++ toLE 1 2))
    (fun u => replied u == [0, 7, 0, 0, 0] && u.host.tenants == [ten]) = true := by decide +kernel
theorem test_telemetry_read : let par := toLE 8 0x1FFFFFFF000
    let s := sent { lacking with tel := { base.tel with telemSeq := 5, telemPage := (List.range 832).map fun i => BitVec.ofNat 8 (if i = 0 then 5 else if i = 0x100 || i = 0x2C0 then 1 else 0) } } 0x0006 par
    let s2 := { s with host := { s.host with tenants := [{ ten with tiles := 0xFF }] } }
    meets s2 0x0006 .inline (fun c s1 => c.z 25 39 && c.f 24 1 == 0 && c.f 16 8 % 4096 == 0 && c.f 16 8 + 4096 == hbmEnd && inPart ten false true (c.f 16 8) 4096 &&
      !hbmAny s1.groupOff (c.f 16 8) 4096) = true ∧
    after (.telemetryRead 0 0) s2 (fun u => replied u == [0, 7, 5, 0, 0] && u.byteAt 0x1FFFFFFF000 == 5 && u.byteAt 0x1FFFFFFF2C0 == 1) = true := by decide +kernel
theorem test_telemetry_publish : base.pow.stage = 2 ∧ base.pow.episode ≠ some true ∧
    after .telemetryPublish { base with tel := { base.tel with alertN := false, telemSeq := 8 } } (fun u => u.tel.telemSeq == 9 && u.tel.alertN) = true := by decide +kernel

/-- Memory group 7 afterwards. -/
def mg7 (u : State) (q : MemGroup → Bool) : Bool := (u.tiles[7]?).any fun x => q x.mg
/-- The module with memory group 7 as `m`. -/
def withMg (m : MemGroup) : State := base.onMg 7 fun _ => m
theorem test_scrub_same : after (.patrolScrubLine 7 .same 3) (withMg { MemGroup.reset with st := 2, scrubOff := groupBytes - 64 })
    (fun u => mg7 u fun m => m.scrubOff == 0 && m.passes == 1 && m.onDie == 3 && m.ceLines == 0) = true := by decide +kernel
theorem test_scrub_symbol : after (.patrolScrubLine 7 (.symbol 135) 3) (withMg { MemGroup.reset with st := 2 })
    (fun u => (mg7 u fun m => m.scrubOff == 64 && m.ceLines == 1 && m.onDie == 0) && u.mem.lineErr == []) = true := by decide +kernel
theorem test_scrub_poison : after (.patrolScrubLine 7 .uncorrectable 3) (withMg { MemGroup.reset with st := 2 })
    (fun u => (mg7 u fun m => m.ueEvents == 1 && m.ceLines == 0) && u.lineErrAt (7 * groupBytes / 64) == some .poisoned) = true := by decide +kernel
theorem test_sram_scrub : tileOfWord ((tileWin 7 + recOff) / 8 - 1) = some 7 ∧
    after (.sramScrub ((tileWin 7 + recOff) / 8 - 1) .single) base (fun u => u.mem.wordErr == []) = true ∧
    after (.sramScrub ((tileWin 7 + recOff) / 8 - 1) .double) base (fun u => u.mem.wordErr == [((tileWin 7 + recOff) / 8 - 1, .double)]) = true := by decide +kernel
theorem test_health_record : let s := withMg { MemGroup.reset with st := 2, ceLines := 3 }
    s.recDue none = true ∧ s.stale (tileWin 7 + recOff) (s.groupRecord 7 { MemGroup.reset with st := 2, ceLines := 3 }) = true ∧
    after (.healthRecordRewrite 7) s (fun u => u.numAt (tileWin 7 + recOff) 8 == 1 && u.numAt (tileWin 7 + recOff + 8) 8 == 3 && u.numAt (tileWin 7 + recOff + 0x38) 8 == 1) = true := by decide +kernel
theorem test_reservoir_record : base.stale resRecAddr base.resRecord = true ∧
    after (.healthRecordRewrite 8) base (fun u => u.resv.resSeq == 1 && u.resv.resUs == some base.clk.nowUs) = true := by decide +kernel
theorem test_group_ready : after (.memoryGroupReady 7) { withMg { MemGroup.reset with st := 1 } with pow := { base.pow with bringUp := .boot } }
    (fun u => u.groupReady 7 && u.pow.bringUp == .selftest) = true := by decide
theorem test_staging_ready : after .stagingReady base (fun u => u.resv.stagingReady) = true := by decide
theorem test_wear : after (.reservoirWearLevelling 10 5 6) base (fun u => u.resv.sparePct == 10 && u.resv.nandBytes == 5 && u.resv.refreshes == 6 && u.tel.events.map (·.code) == [0x13]) = true ∧
    after (.reservoirWearLevelling 11 5 6) base (fun u => u.tel.events == []) = true := by decide

/-! ### Links, router, requests -/

/-- A running link to the module at X = 1, on port 0. -/
def link0 : Port := { Port.reset with st := .active, partner := some 1024, trained := 16, width := 16 }
/-- The module with port 0 as `q`. -/
def withPort (q : Port) : State := base.onPort 0 fun _ => q
/-- Port 0 afterwards. -/
def port0 (u : State) (q : Port → Bool) : Bool := (u.fab.ports[0]?).any q
theorem test_frame_bad : base.domOn 1 = true ∧ portTrains link0 = false ∧
    after (.linkFrame 0 [] 1) (withPort link0) (fun u => port0 u fun y => y.nak && y.st == .active) = true ∧
    after (.linkFrame 0 [] 1) (withPort { link0 with naks := List.replicate 32 4999001 }) (fun u => (port0 u fun y => y.st == .retrain) && u.tel.events.map (·.code) == [0x23]) = true := by decide +kernel
theorem crc_of_zeros (n : Nat) : crc64 (List.replicate n 0) = 0 := by
  have h : crcByte 0 0 = 0 := by decide
  unfold crc64
  induction n with
  | zero => rfl
  | succ n ih => rw [List.replicate_succ, List.foldl_cons, h]; exact ih
/-- A frame of zeros passes its check and is the first in order. -/
theorem test_frame_in_order : let data : Bytes := List.replicate 10280 0
    crc64 (data.take 10240) = BitVec.ofNat 64 (fld data 10240 8) ∧ BitVec.ofNat 32 (fld data 8 4) = link0.rxSeq + 1 ∧ portTrains link0 = false := by
  intro data
  refine ⟨?_, by decide +kernel, by decide⟩
  rw [show data.take 10240 = List.replicate 10240 0 from List.take_replicate .., crc_of_zeros, show fld data 10240 8 = 0 from by decide +kernel]
  rfl
theorem test_detect : base.fab.dims = some (4, 2, 1) ∧ 1 < extent (4, 2, 1) (3 / 2) ∧
    after (.linkSignalDetect 3) base (fun u => (u.fab.ports[3]?).any fun y => y.st == .training && y.lmsgOut == [padTo 64 base.ident]) = true := by decide +kernel
theorem test_loss : after (.linkSignalLoss 0) (withPort { link0 with attempts := 2 }) (fun u => port0 u fun y => y.st == .retrain && y.attempts == 0 && y.lmsgOut == [padTo 64 base.ident]) = true := by decide +kernel
/-- IDENT of module `id`. -/
def identOf (id : Nat) : Bytes := toLE 2 1 ++ toLE 2 id ++ toLE 2 5 ++ zeros 58
/-- Port 0 in training, with a message received. -/
def trainingPort (m : Bytes) : Port := { Port.reset with st := .training, lmsgIn := [m] }
theorem test_ident : base.fab.modId = some 0 ∧ partnerOk (4, 2, 1) 0 1024 0 = true ∧ partnerOk (4, 2, 1) 0 32 0 = false ∧ fldBytes (identOf 0x8400) 8 16 = padTo 16 base.fab.fabDigest ∧
    after (.identMsg 0) (withPort (trainingPort (identOf 0x8400))) (fun u => port0 u fun y => y.partner == some 1024 && y.partnerGen == 5 && y.ident && !y.mute && y.st == .training) = true ∧
    after (.identMsg 0) (withPort (trainingPort (identOf 0x8000))) (fun u => u.fab.ports.map (·.mute) == [true, true, false, false, false, false]) = true ∧
    after (.identMsg 0) (withPort (trainingPort (identOf 0x8020))) (fun u => (port0 u fun y => y.st == .fault) && u.tel.events.map (·.code) == [0x22]) = true := by decide +kernel
theorem test_width : let q := { link0 with lmsgIn := [toLE 1 3 ++ toLE 1 8 ++ zeros 62] }
    after (.widthMsg 0) (withPort q) (fun u => port0 u fun y => y.width == 8 && y.st == .degraded && y.lmsgIn == []) = true := by decide +kernel
theorem test_txeq : let m := toLE 1 4 ++ toLE 1 15 ++ toLE 1 5 ++ toLE 1 0xFF ++ zeros 60
    after (.txeqMsg 0) (withPort { link0 with lmsgIn := [m] }) (fun u => port0 u fun y => y.txSet == [(95, -1)] && y.lmsgOut == [m] && y.lmsgIn == []) = true := by decide +kernel
theorem test_lanes : laneSet 0xFFFF = some (0, 16) ∧ laneSet 0xFF7F = some (8, 8) ∧ laneSet 0x7EF1 = some (4, 4) ∧ laneSet 0x7EE1 = none := by decide
theorem test_trained : after (.linkTrained 0 0xFF7F) (withPort { link0 with st := .training, ident := true, partner := some 0 }) (fun u => port0 u fun y => y.st == .degraded && y.trained == 8 && y.lane == 8 && y.width == 8) = true ∧
    after (.linkTrained 0 0xFFFF) (withPort { link0 with st := .training }) (fun u => port0 u fun y => y.st == .training) = true ∧
    after (.linkTrained 0 0) (withPort { link0 with st := .training, attempts := 1 }) (fun u => port0 u fun y => y.attempts == 2 && y.st == .training) = true := by decide +kernel
theorem test_calibration : after (.opticalCalibration 0 9) (withPort link0) (fun u => port0 u fun y => y.cal.map (fun c => (c.lanes.length, c.base, c.setting, c.up)) == some (16, some 9, 0, true) && y.txeqOut.length == 1) = true ∧
    after (.opticalCalibration 0 9) (withPort { link0 with calUs := some 4000000 }) (fun u => port0 u fun y => y.cal == none) = true ∧
    after (.opticalCalibration 0 9) (withPort { link0 with cal := some { lanes := [1, 2], base := some 9, setting := 6, up := true } })
      (fun u => port0 u fun y => y.rxSet == [(97, -2)] && y.cal.map (·.up) == some false) = true := by decide +kernel
/-- A READ_REQ from module 2048 to `dest`, on its way in the + direction of X. -/
def pk (dest ttl : Nat) : Pkt := { pktBlank with ty := 1, vc := 5, src := 2048, dest := dest, inter := dest, phase := true, ttl := ttl, len := 8 }
theorem test_first_port : firstPort 0 (pk 1056 9) = some 0 ∧ coord 0 0 ≠ coord 1056 0 ∧ firstPort 0 (pk 32 9) = some 2 ∧ firstPort 0 (pk 0 9) = none ∧
    firstPort 0 { pk 1056 9 with route := 8 } = some 1 ∧ firstPort 0 { pk 0 9 with phase := false, inter := 1024, route := 1 } = some 1 := by decide
theorem test_forward_drop : after (.packetForward 0) (withPort { link0 with inq := [pk 1024 1] }) (fun u => port0 u fun y => y.inq == [] && y.outq == [] && y.freed.getD 22 0 == 1) = true := by decide +kernel
theorem test_forward_deliver : phaseTurn 0 { pk 0 9 with ttl := 8 } = pk 0 8 ∧ base.fab.triples = [] ∧
    after (.packetForward 0) (withPort { link0 with inq := [pk 0 9] }) (fun u => u.fab.rx == [{ pk 0 8 with held := some (0, 22) }] && port0 u fun y => y.freed.getD 22 0 == 0) = true := by decide +kernel
theorem test_forward_on : beyond (4, 2, 1) 0 1024 1024 0 = false ∧ beyond (4, 2, 1) 0 2048 1024 0 = true ∧
    after (.packetForward 1) ((withPort link0).onPort 1 fun _ => { link0 with inq := [{ pk 1024 9 with dclass := true }], partner := some 3072 })
      (fun u => port0 u fun y => y.outq == [{ pk 1024 8 with dclass := true }]) = true ∧
    after (.packetForward 2) ((withPort link0).onPort 2 fun _ => { link0 with inq := [{ pk 1024 9 with dclass := true }] })
      (fun u => port0 u fun y => y.outq == [pk 1024 8]) = true := by decide +kernel

theorem test_port_pick : let q := { link0 with outq := [pk 1024 9], credits := List.replicate 32 0, shared := 1 }
    (portPick true q).map (fun y => (y.outq, y.txPart == pktFrameSlots { pk 1024 9 with dclass := true })) = some ([], true) ∧
    (portPick true { q with shared := 0 }).isNone = true := by decide +kernel

/-! The module's identity, the map, the sluices. -/

theorem test_module_id : let s := { base with fab := { base.fab with modId := none, originValid := true, origin := 0x0C20, slotId := 1, slotMap := [(0, 0, 0), (2, 1, 0)] } }
    coord (0x0C20 : BitVec 15).toNat 0 = 3 ∧ after .moduleIdFix s (fun u => u.fab.modId == some 1024) = true := by decide
theorem test_merge : mergeEntry (true, 4) (false, 5) = (false, 5) ∧ mergeEntry (false, 5) (true, 4) = (false, 5) ∧ mergeEntry (true, 5) (false, 5) = (false, 5) := by decide
theorem test_map : let m := toLE 1 2 ++ toLE 1 2 ++ zeros 2 ++ toLE 2 0x8400 ++ toLE 2 7 ++ toLE 2 32 ++ toLE 2 0 ++ zeros 52
    after (.mapMsg 0) (withPort { link0 with lmsgIn := [m] }) (fun u => u.fab.fmap == [(32, false, 0), (1024, true, 7)] && u.fab.routeMap == []) = true := by decide +kernel
theorem test_sluice_open : let s := { base with fab := { base.fab with sluices := false, loopback := true, ownGen := 65535 } }
    s.domOn 1 = true ∧ after .sluiceOpen s (fun u => u.fab.sluices && u.fab.ownGen == 0 && mapEntry u.fab.fmap 0 == (true, 0)) = true := by decide +kernel
theorem test_sluice_close : let s := { base with pow := { base.pow with episode := some true } }
    after .sluiceClose s (fun u => !u.fab.sluices) = true := by decide
theorem test_routes : let s := { base with fab := { base.fab with fmap := [(32, false, 0)] } }
    s.fab.fmap ≠ s.fab.routeMap ∧ after .routeRecompute s (fun u => u.fab.routeMap == [(32, false, 0)] && u.tel.events.map (·.code) == [0x24]) = true ∧
    after .routeRecompute { s with fab := { s.fab with mapEventUs := some 4900001 } } (fun u => u.fab.routeMap == [(32, false, 0)] && u.tel.events == []) = true := by decide +kernel

/-! Requests and responses. -/

/-- A running job 5 of tenant 1 on modules 0 and 1024, handle 3, with a window of all rights at 8192. -/
def jobA : Job := { newJob 3 0 1 9 0 0 5 11 false [0, 1024] [(8192, 4096, 7)] with st := .running }
/-- A job state for packet `p` at the endpoint. -/
def got (j : Job) (p : Pkt) : State :=
  { withPort link0 with work := { base.work with jobs := [j] }, fab := { (withPort link0).fab with rx := [p] } }
/-- A request of type `ty` at address `a` from module 1024, in job 5. -/
def reqP (ty code len a : Nat) (payload : Bytes) : Pkt :=
  { pk 0 9 with ty := ty, src := 1024, code := code, tag := 77, len := len, a := BitVec.ofNat 48 a, j := 5, payload := payload }
/-- The answer sent, kept until the whole map has come. -/
def answers (u : State) : List (Nat × Nat × Nat × Bytes) := u.fab.tx.map fun p => (p.ty, p.tag, p.code, p.payload)
/-- The request is at the endpoint, and its status. -/
def statusOf (s : State) (right : Nat) : List Nat := s.fab.rx.map fun p => { s with fab := { s.fab with rx := [] } }.requestStatus p right p.len
theorem test_read_req : let s := (got jobA (reqP 1 0 3 8193 [])).put 8192 [1, 2, 3, 4]
    statusOf s 1 = [stOK] ∧ hbmAny (fun g => !s.groupReady g) 8193 3 = false ∧ after .readReq s (fun u => answers u == [(4, 77, 0, [2, 3, 4])] && u.fab.rx == []) = true := by decide +kernel
theorem test_read_denied : let s := got jobA (reqP 1 0 3 12286 [])
    statusOf s 1 = [stDenied] ∧ after .readReq s (fun u => answers u == [(4, 77, 19, [])]) = true := by decide +kernel
theorem test_write_req : let s := got jobA (reqP 2 0 2 12286 [8, 9])
    statusOf s 2 = [stOK] ∧ after .writeReq s (fun u => answers u == [(5, 77, 0, [])] && u.bytesAt 12285 4 == [0, 8, 9, 0]) = true := by decide +kernel
theorem test_write_denied : let s := got { jobA with windows := [(8192, 4096, 5)] } (reqP 2 0 2 8192 [8, 9])
    statusOf s 2 = [stDenied] ∧ after .writeReq s (fun u => answers u == [(5, 77, 19, [])] && u.bytesAt 8192 2 == [0, 0]) = true := by decide +kernel
/-- ATOMIC_REQ of an operation on a 4-byte word at 8196 that holds 5. -/
def atomS (op operand compare : Nat) : State := (got jobA (reqP 3 op 4 8196 (toLE 8 operand ++ toLE 8 compare))).put 8196 [5]
theorem test_atomic_req : statusOf (atomS 1 0 0) 4 = [stOK] ∧
    after .atomicReq (atomS 1 0xFFFFFFFC 0) (fun u => answers u == [(6, 77, 0, [5, 0, 0, 0, 0, 0, 0, 0])] && u.numAt 8196 4 == 1) = true ∧
    after .atomicReq (atomS 2 4 0) (fun u => u.numAt 8196 4 == 4) = true ∧ after .atomicReq (atomS 3 4 0) (fun u => u.numAt 8196 4 == 5) = true ∧
    after .atomicReq (atomS 4 9 5) (fun u => u.numAt 8196 4 == 9) = true ∧ after .atomicReq (atomS 4 9 6) (fun u => u.numAt 8196 4 == 5) = true := by decide +kernel

/-- An outstanding request, tag 77, to module 1024. -/
def rem (vc : Nat) (what : RemoteFor) : Remote := { tag := 77, dest := 1024, vc := vc, addr := 64, len := 64, what := what }
/-- A response from module 1024 to it, in a state. -/
def rsp (s : State) (ty a : Nat) (payload : Bytes) (r : Remote) : State :=
  { s with fab := { s.fab with rx := [{ reqP ty 0 payload.length a payload with vc := 6, j := 0 }], remotes := [r] } }
theorem test_read_rsp : let s := rsp (base.onTile 1 fun x => { x with xuNet := { x.xuNet with waiting := 1 } }) 4 6 (List.replicate 64 7) (rem 5 (.unitRead 1 4096))
    after .readRsp s (fun u => ((u.tiles[1]?).any fun x => x.xuNet.waiting == 0 && x.xuNet.got == [(4096, List.replicate 64 7)]) && u.fab.remotes == [] && u.peerWgen 1024 == some 6 &&
      u.fab.readBuf.map (·.line) == [1]) = true := by decide +kernel
/-- Channel 7 with a descriptor whose response is awaited. -/
def chanWaits : State := hubChan { chanOn with reqs := [oneReq (copyDesc 1 4096)], act := some { actOf (copyDesc 1 4096) 16 with waiting := 1 } }
/-- It waits no longer. -/
def chanFree (u : State) : Bool := (u.chan? 8 7).any fun x => x.act.any fun a => a.waiting == 0 && a.status == stOK
theorem test_write_ack : after .writeAck (rsp chanWaits 5 0 [] (rem 5 (.write 8 7))) (fun u => chanFree u && u.fab.remotes == []) = true := by decide +kernel
theorem test_atomic_rsp : after .atomicRsp (rsp chanWaits 6 0 (toLE 8 9) (rem 5 (.atomic 8 7 0 0))) (fun u => chanFree u && u.fab.remotes == []) = true := by decide +kernel
theorem test_control_rsp : let s0 := busy base 0x0804 (.peerReset 1024)
    after .controlRsp (rsp s0 0x21 0 [] (rem 0 (.reset 0 0))) (fun u => replied u == [0, 7, 0, 0, 0] && u.fab.remotes == []) = true := by decide +kernel
theorem test_peer_fence : let s := { base with fab := { base.fab with fenceCount := 4, readBuf := [{ peer := 1024, line := 1, wgen := 0, data := [] }, { peer := 32, line := 1, wgen := 0, data := [] }] } }
    inTorus (4, 2, 1) 3104 = true ∧ inTorus (4, 2, 1) 4096 = false ∧
    after (.peerFence 1024) s (fun u => u.fab.fenceCount == 5 && u.host.readData == [5, 0, 0, 0, 0, 0, 0, 0] && u.fab.readBuf.map (·.peer) == [32]) = true := by decide +kernel
/-- A triple from module 1024 with a packet held. -/
def tripleA : Triple := { src := 1024, vc := 5, expect := 3, held := [pk 0 9], broken := false }
theorem test_gap : let s := { base with fab := { (withPort link0).fab with triples := [tripleA] } }
    after (.gapTimeout 1024 5) s (fun u => u.fab.triples == [{ tripleA with held := [], broken := true }] && u.tel.events.map (·.code) == [0x26] &&
      u.fab.tx.map (fun p => (p.ty, p.dest, p.a)) == [(7, 1024, 0x30005)]) = true := by decide +kernel
theorem test_break : let s := { base with fab := { base.fab with rx := [{ ctlPkt 7 0 0 (5 + 3 * 65536) [] with src := 1024 }], remotes := [rem 5 (.reset 0 0)] } }
    after .brk s (fun u => u.fab.resync == [(1024, 5)] && u.fab.remotes == []) = true := by decide +kernel
theorem test_response_timeout : let s := rsp (busy base 0x0804 (.peerReset 1024)) 0x21 0 [] (rem 0 (.reset 0 0))
    after (.responseTimeout (.request 77)) s (fun u => u.fab.resync == [(1024, 0)] && u.fab.remotes == [] && replied u == [14, 7, 0, 0, 0]) = true := by decide +kernel
/-- A restore of job 5, not yet begun. -/
theorem test_holdings : let s := got { jobA with st := .paused } { ctlPkt 0x2D 0 5 9 (zeros 64) with src := 1024 }
    after .holdings s (fun u => u.work.jobs.map (fun j => j.early.map (·.1)) == [[1]]) = true := by decide +kernel

/-! ### Groups and collectives -/

/-- Group 9 of modules 0 and 1024 in job 3, on channel 2. -/
def grpA : Group :=
  { gid := 9, vc := 2, low := true, job := 3, members := [0, 1024], rank := 0, digest := zeros 16, st := .ready, step := false,
    issued := 1, doomed := [] }
/-- The module with the job, its link up, and groups. -/
def casS (gs : List Group) : State := { withPort link0 with work := { base.work with jobs := [jobA] }, cas := { base.cas with groups := gs } }
/-- GROUP_CREATE of group 9 with `n` members listed at 4096. -/
def createPar (n : Nat) : Bytes := toLE 2 9 ++ [2, 1] ++ toLE 2 3 ++ zeros 2 ++ toLE 4 n ++ zeros 4 ++ toLE 8 4096
theorem test_group_create_hyps : meets (sent ((casS []).put 4098 [0, 4]) 0x0301 (createPar 2)) 0x0301 .inline (fun c s1 =>
      c.z 22 2 && c.z 28 4 && c.z 40 24 && c.f 24 4 == 2 && s1.idsAt (c.f 32 8) 2 == [0, 1024] && s1.membersOk [0, 1024] && (s1.job? (c.f 20 2)).any (fun j => j.tenant == c.tenant && j.st == .running) &&
      s1.cmdRead (c.f 32 8) 4 == (s1, stOK) && inPart ten false false (c.f 32 8) 4 && s1.alive 1024 && s1.cas.announced == []) = true := by decide +kernel
theorem test_group_create : after (.groupCreate 0 0) (sent (casS []) 0x0301 (createPar 1)) (fun u => (replied u).take 3 == [0, 7, 0] &&
      u.cas.groups.map (fun g => (g.gid, g.vc, g.low, g.members, g.st == .ready)) == [(9, 2, true, [0], true)]) = true ∧
    after (.groupCreate 0 0) (sent ((casS []).put 4098 [0, 4]) 0x0301 (createPar 2)) (fun u => waits u == [.groupCreate 9] && u.cas.groups.map (·.st) == [.creating]) = true := by decide +kernel
/-- BROADCAST of 4 bytes from rank `root`, at 8192 to 12288, started. -/
def bcast (root : Nat) : CollRun :=
  { (CollPar.mk 9 4 4 4 4 8192 12288 1 0 root).run 5 1 2 (.command 0) none [] 0 with started := true }
theorem test_group_destroy : meets (sent (casS [grpA]) 0x0302 (toLE 2 9)) 0x0302 .inline (fun c s1 => c.z 18 46 && s1.group? (c.f 16 2) == some grpA && s1.cas.colls == []) = true ∧
    after (.groupDestroy 0 0) (sent (casS [grpA]) 0x0302 (toLE 2 9)) (fun u => replied u == [0, 7, 0, 0, 0] && u.cas.groups == []) = true ∧
    after (.groupDestroy 0 0) (sent (casS [{ grpA with st := .creating }]) 0x0302 (toLE 2 9)) (fun u => replied u == [stBusy, 7, 0, 0, 0]) = true ∧
    (let s := casS [grpA]; after (.groupDestroy 0 0) (sent { s with cas := { s.cas with colls := [bcast 1] } } 0x0302 (toLE 2 9))
      (fun u => waits u == [.groupDestroy 9] && u.cas.groups.map (·.st) == [.destroying])) = true := by decide +kernel
/-- COLLECTIVE of that BROADCAST. -/
def bcastPar : Bytes := toLE 2 9 ++ [4, 4, 4, 4, 0, 0] ++ toLE 8 8192 ++ toLE 8 12288 ++ toLE 8 1 ++ toLE 8 0 ++ toLE 4 0 ++ zeros 4
theorem test_collective : meets (sent (casS [grpA]) 0x0303 bcastPar) 0x0303 .inline (fun c s1 =>
      (collPar c.par).ok c.par 2 && (collPar c.par).op != 5 && (s1.job? grpA.job).any (fun j => j.tenant == c.tenant) &&
      s1.collStatus ((collPar c.par).run s1.clk.nextId c.tenant 2 (.command c.uid) none [] s1.clk.nowUs) grpA == stOK) = true ∧
    after (.collective 0 0) (sent (casS [grpA]) 0x0303 bcastPar) (fun u => u.host.running.length == 1 && u.cas.colls.map (·.started) == [true] &&
      u.fab.rx.map (fun p => (p.ty, p.payload)) == [(0x11, zeros 4)] && u.fab.tx.map (fun p => (p.ty, p.dest)) == [(0x11, 1024)]) = true ∧
    after (.collective 0 0) (sent (casS []) 0x0303 bcastPar) (fun u => replied u == [stBadParam, 7, 0, 0, 0]) = true := by decide +kernel
/-- RESHARD of one move of 64 bytes from rank 0 to rank 1, table at 4096, regions at 8192 and `dst`. -/
def reshardPar (dst : Nat) : Bytes := toLE 2 9 ++ zeros 6 ++ toLE 8 4096 ++ toLE 4 1 ++ zeros 4 ++ toLE 8 8192 ++ toLE 8 dst ++ toLE 8 64
def moveS : State := (casS [grpA]).put 4096 (toLE 2 0 ++ toLE 2 1 ++ zeros 20 ++ toLE 8 64)
theorem test_reshard : meets (sent moveS 0x0304 (reshardPar 12288)) 0x0304 .inline (fun c s1 => c.z 18 6 && c.z 36 4 && inPart ten false false (c.f 24 8) 32 &&
      s1.cmdRead (c.f 24 8) 32 == (s1, stOK) && inPart ten false true (c.f 48 8) (c.f 56 8) && s1.moveTable (c.f 24 8) 1 == [(0, 1, 0, 0, 64)] &&
      s1.collStatus ((CollPar.mk 9 5 1 1 1 8192 12288 1 4096 0).run 1 1 2 (.command 1) (some 64) [(0, 1, 0, 0, 64)] 0) grpA == stOK) = true ∧
    after (.reshard 0 0) (sent moveS 0x0304 (reshardPar 12288)) (fun u => u.cas.colls.map (fun r => (r.ord, r.landing)) == [(1, [0])] && u.fab.tx.map (fun p => (p.ty, p.payload.length)) == [(0x11, 64)]) = true ∧
    after (.reshard 0 0) (sent moveS 0x0304 (reshardPar 8255)) (fun u => replied u == [stBadParam, 7, 0, 0, 0]) = true := by decide +kernel

theorem test_shards : (List.range 4).map (shardLo 33 16 3) = [0, 16, 32, 48] ∧ (List.range 3).map (shardLo 16 16 2) = [0, 0, 16] := by decide
theorem test_residue : residue (.fin true 3 2) = 2 ∧ residue (Val.add (.fin false 5 0) (.fin true 3 1)) = 6 := by decide
theorem test_place : placeRank true 5 2 4 = 2 ∧ placeRank false 5 2 4 = 3 := by decide
theorem test_adder_sum : addElem 4 false 2 (toLE 4 0x3F800000) (toLE 4 0x3F800000) = toLE 4 0x40000000 ∧
    addElem 3 false 2 (toLE 2 0x3F80) (toLE 2 0x3B80) = toLE 2 0x3F80 ∧ addElem 3 true 2 (toLE 2 0x3F80) (toLE 2 0x3B80) = toLE 2 0x3F81 := by decide +kernel

/-- The module with an outstanding collective and a packet at the endpoint. -/
def collS (r : CollRun) (p : List Pkt) : State :=
  let s := casS [grpA]
  { s with cas := { s.cas with colls := [r] }, fab := { s.fab with rx := p } }
theorem test_coll_start : let s := collS { bcast 0 with started := false } []
    (∀ e ∈ (bcast 0).reads grpA ++ (bcast 0).writes grpA, hbmAny s.groupOff e.1 e.2 = false ∧ hbmAny (fun t => !s.groupReady t) e.1 e.2 = false) ∧
    (∀ m ∈ grpA.members, s.alive m = true) ∧ grpA.doomed = [] ∧ s.cas.pathFenced = [] ∧ s.mem.lineErr = [] ∧ s.mem.wordErr = [] ∧ s.mem.deadPages = [] ∧
    after (.collStart 2) s (fun u => u.cas.colls.map (fun r => (r.started, r.recv.length)) == [(true, 1)] && u.cas.retain.length == 2) = true ∧
    after (.collStart 1) s (fun u => u == s) = true := by decide +kernel
/-- REDUCE_SCATTER of 32 H32 elements; this rank adds shard 0. -/
def reduceR : CollRun :=
  { (CollPar.mk 9 1 4 4 4 8192 12288 32 0 0).run 5 1 2 (.command 0) none [] 0 with started := true, adders := addersOf grpA 0 }
/-- Sixteen ones, from a rank. -/
def onesPkt (m : Nat) : Pkt := { reduceR.pkt 0x10 0 0 0 true ((List.range 16).flatMap fun _ => toLE 4 0x3F800000) with src := m }
/-- The adder with its lower input received, the upper one at the endpoint. -/
def addS : State :=
  collS { reduceR with adders := reduceR.adders.map fun a => { a with lower := { a.lower with q := [onesPkt 0], last := true } } } [onesPkt 1024]
theorem test_adder_hyps : addS.collPlace (onesPkt 1024) = some (.adder 5 0 true) ∧ reduceR.arrivalOk (onesPkt 0) = true ∧ pkResent (onesPkt 0) = false ∧ reduceR.halted = false ∧
    (addS.takeRx fun p => p.ty == 0x10 && ((addS.collPlace p).isSome || (addS.unexpected p).isSome)).isSome = true := by decide +kernel
theorem test_cdata : after (.cdata false) addS (fun u => (u.fab.rx.filter (·.ty == 0x10)).map (fun p => (p.ty, pkLevel p, fld p.payload 0 4, fld p.payload 60 4, p.j)) == [(0x10, 0xF, 0x40000000, 0x40000000, 4)] &&
    u.cas.residueFaults == 0) = true := by decide +kernel
theorem test_cdata_upset : after (.cdata true) addS (fun u => u.cas.colls.map (fun r => (r.faults, r.adders.map fun a => (a.lower.resend, a.upper.resend))) == [(1, [(true, true)])] &&
    u.cas.residueFaults == 1 && u.tel.events.map (·.code) == [0x30]) = true := by decide +kernel
/-- The BROADCAST's packet from rank 1. -/
def bcastPkt : Pkt := { (bcast 1).pkt 0x11 0 0xF 1 true [1, 2, 3, 0x40] with src := 1024 }
theorem test_gdata : let s := collS { bcast 1 with recv := (bcast 1).expects grpA, out := [{ bcastPkt with dest := 1024 }] } [bcastPkt]
    s.collPlace bcastPkt = some (.recv 5 0) ∧ (bcast 1).arrivalOk bcastPkt = true ∧ after .gdata s (fun u => u.bytesAt 12287 6 == [0, 1, 2, 3, 0x40, 0]) = true := by decide +kernel
theorem test_announce : let p := { ctlPkt 0x28 0 5 9 (zeros 16) with src := 1024 }
    ctlFieldsOk p 12 16 = true ∧ after .groupAnnounce (collS (bcast 1) [{ p with a := 8 }]) (fun u => u.cas.announced == [(8, 1024, zeros 16)]) = true ∧
    after .groupAnnounce (collS (bcast 1) [{ p with j := 6 }]) (fun u => u.cas.announced == [] && u.fab.rx == []) = true ∧
    (let s := busy (casS [{ grpA with st := .creating }]) 0x0301 (.groupCreate 9)
     after .groupAnnounce { s with fab := { s.fab with rx := [p] } } (fun u => u.cas.groups.map (·.st) == [.ready] && replied u == [0, 7, 0, 0, 0])) = true := by decide +kernel
theorem test_abandon : let p := { ctlPkt 0x2B 0 5 9 [] with src := 1024 }
    ctlFieldsOk p 12 0 = true ∧ ((collS (bcast 1) []).jobOfPkt p).isSome = true ∧ after .abandon (collS (bcast 1) [p]) (fun u => u.cas.colls == []) = true := by decide +kernel
/-- The BROADCAST's packet to module 1024, kept, with an answer of a type. -/
def keptS (ty code : Nat) : State :=
  let k : Pkt := { (bcast 0).pkt 0x11 1024 0xF 0 true [1, 2, 3, 4] with dest := 1024 }
  let s := collS { bcast 0 with recv := (bcast 0).expects grpA } [{ Machine.answer ty code { k with src := 0 } with src := 1024 }]
  { s with cas := { s.cas with retain := [{ rid := 5, pkt := k }] } }
theorem test_check_ack : after .checkAck (keptS 0x12 0) (fun u => u.cas.retain == [] && u.fab.rx == []) = true := by decide +kernel
theorem test_coll_timeout : let s := keptS 0x12 0
    (s.cas.colls.map fun x => (x.rid, s.awaited x)) = [(5, [1024])] ∧
    after (.responseTimeout (.collective 5)) s (fun u => u.cas.colls == [] && u.fab.resync == [(1024, 2)]) = true := by decide +kernel
theorem test_resend : after .resendReq (keptS 0x13 0) (fun u => u.fab.tx.map (fun p => (p.ty, pkResent p, pkLastp p, p.payload)) == [(0x11, true, true, [1, 2, 3, 4])]) = true ∧
    (let notice := fun k => { pktBlank with ty := 0x13, vc := 6, src := 1024, a := collA 9 4 0xF false true 0, j := BitVec.ofNat 64 (resNum 16 k) }
     after .resendReq (collS (bcast 0) [notice 0]) (fun u => u.cas.colls == []) = true ∧
     after .resendReq (collS (bcast 0) [notice 8]) (fun u => u.cas.colls.length == 1 && u.cas.groups.map (·.doomed) == [[8]]) = true) := by decide +kernel
theorem test_landed : let r := { bcast 0 with op := 5, table := [(0, 1, 0, 0, 4), (0, 0, 0, 0, 4), (0, 1, 8, 8, 4)], landing := [0, 1, 2] }
    r.landingAt 1 = [0, 2] ∧
    after .landed (collS r [{ Machine.answer 0x14 0 ((bcast 0).pkt 0x11 1024 0xF 0 true []) with src := 1024 }]) (fun u => u.cas.colls.map (·.landing) == [[1, 2]]) = true := by decide +kernel
theorem test_stall : let s := collS (bcast 0) []
    after (.collectiveStall 5) { s with clk := { s.clk with nowUs := 9999999 } } (fun u => u.tel.events == []) = true ∧
    after (.collectiveStall 5) { s with clk := { s.clk with nowUs := 10000000 } } (fun u => u.tel.events.map (fun e => (e.code, e.tile, e.requested)) == [(0x34, 0xFF, 9)]) = true := by decide +kernel

/-! ### Plans, kernels, jobs -/

/-- A kernel image of 320 bytes: one tile, pair 0, one bundle at 288. -/
def kImg : Bytes :=
  toLE 4 0x4B4E4C31 ++ toLE 2 1 ++ toLE 2 256 ++ toLE 4 320 ++ [1, 0] ++ toLE 2 1 ++ toLE 4 256 ++ toLE 2 1 ++ toLE 2 0 ++ toLE 4 0 ++ toLE 4 64 ++
    zeros 224 ++ [0, 0, 0, 0] ++ toLE 4 1 ++ toLE 8 288 ++ zeros 16 ++ toLE 4 0x1F ++ zeros 28
/-- A directory entry. -/
def dirEnt (ty count off len : Nat) : Bytes := toLE 2 ty ++ zeros 2 ++ toLE 4 count ++ toLE 8 off ++ toLE 8 len ++ zeros 8
/-- A training plan of one tile: kernel 0 in its only entry, a window, a footprint of 4 MiB, buffers of 4 KiB and a ledger of
64 bytes, SKIP_NON_FINITE as `skip`. -/
def planImg (skip : Nat) : Bytes :=
  toLE 4 0x504C4E31 ++ toLE 2 1 ++ [1, 1] ++ toLE 8 1472 ++ toLE 2 6 ++ zeros 6 ++ toLE 8 256 ++ zeros 224 ++
    dirEnt 1 1 448 64 ++ dirEnt 2 1 512 576 ++ dirEnt 3 2 1088 128 ++ dirEnt 5 1 1216 16 ++ dirEnt 6 1 1280 128 ++ dirEnt 4 1 1408 32 ++
    padTo 64 [1] ++ padTo 256 [0, 1] ++ kImg ++
    padTo 64 ([1, 0, 0] ++ zeros 17 ++ [1] ++ zeros 3 ++ toLE 8 0x3000) ++ padTo 64 [0x7F] ++
    padTo 64 (toLE 8 0 ++ toLE 8 0x400000) ++
    padTo 128 (toLE 8 0x200000 ++ toLE 8 0x210000 ++ toLE 8 4096 ++ toLE 8 64 ++ toLE 8 0x220000 ++ toLE 8 0x10000 ++ toLE 1 0 ++ toLE 1 skip) ++
    toLE 8 8192 ++ toLE 8 4096 ++ toLE 8 7 ++ zeros 8
/-- Its place, and the loaded plan. -/
def planAt : Nat := 0x100000
def planA : Plan := { handle := 1, addr := planAt, len := 1472, kind := 1, tiles := [0], digest := [] }
/-- The tenant with that plan. -/
def tenA : Tenant := { ten with plans := [planA] }
/-- The module with the plan loaded and one job of it. -/
def jobS (skip : Nat) (j : Job) : State :=
  let s := (casS []).put planAt (planImg skip)
  { s with host := { s.host with tenants := [tenA] }, work := { s.work with jobs := [j] } }
/-- The plan in memory and no job. -/
def loadS (ps : List Plan) : State :=
  let s := (casS []).put planAt (planImg 0)
  { s with host := { s.host with tenants := [{ ten with plans := ps }] }, work := { s.work with jobs := [] } }
/-- PLAN_LOAD of it. -/
def loadPar (n : Nat) : Bytes := toLE 8 planAt ++ toLE 8 n
theorem test_plan_load_hyps : meets (sent (loadS []) 0x0101 (loadPar 1472)) 0x0101 .inline (fun c s1 => c.z 32 32 && s1.cmdRead (c.f 16 8) (c.f 24 8) == (s1, stOK) && s1.planOk (c.f 16 8) (c.f 24 8) &&
      (s1.tenant? c.tenant).any fun t => inPart t false true (c.f 16 8) (c.f 24 8) && s1.planTiles (c.f 16 8) == 1) = true := by decide +kernel
theorem test_plan_load : after (.planLoad 0 0) (sent (loadS [{ planA with handle := 1 }]) 0x0101 (loadPar 1472)) (fun u => replied u == [0, 7, 0x10002, 0, 0] && u.host.tenants.map (·.plans.map (·.handle)) == [[1, 2]]) = true ∧
    after (.planLoad 0 0) (sent (loadS []) 0x0101 (loadPar 1471)) (fun u => replied u == [stBadParam, 7, 0, 0, 0]) = true := by decide +kernel
/-- KERNEL_LAUNCH of the plan's kernel on tile 0, arguments at 0x3000. -/
def launchPar : Bytes := toLE 8 (planAt + 768) ++ toLE 4 320 ++ [1, 0, 0, 0] ++ toLE 8 9 ++ toLE 8 8 ++ toLE 8 0x3000 ++ toLE 4 0 ++ zeros 4
theorem test_kernel_launch_hyps : meets (sent (loadS []) 0x0107 launchPar) 0x0107 .inline (fun c s1 => c.z 29 3 && c.z 60 4 && s1.kImageOk (c.f 16 8) (c.f 24 4) && s1.kTiles (c.f 16 8) == 1 &&
      s1.cmdRead (c.f 16 8) (c.f 24 4) == (s1, stOK) && s1.cmdRead 0x3000 64 == (s1, stOK) && s1.kArgs (c.f 16 8) == 64 && !s1.anyFenced (s1.kernelCores (c.f 16 8) [0]) && !s1.tileKernel 0 && !s1.tileJob 0) = true := by decide +kernel
theorem test_kernel_launch : after (.kernelLaunch 0 0) (sent ((loadS []).put 0x3000 [5]) 0x0107 launchPar)
      (fun u => (u.work.kernels.map fun k => (k.seed, k.step, k.tiles)) == [(9, 8, [0])] && u.host.running.length == 1 && u.byteAt (cisAddr 0 0) == 5 && path0 u fun x => x.active && x.prog.map (·.ctl) == [0x1F]) = true ∧
    after (.kernelLaunch 0 0) (sent ((loadS []).onTile 0 fun x => { x with kernel := some 3 }) 0x0107 launchPar) (fun u => replied u == [stBusy, 7, 0, 0, 0]) = true := by decide +kernel

/-- JOB_START of plan 1, job 6, members listed at 4096, step group 10. -/
def startPar (n : Nat) : Bytes := toLE 2 1 ++ [1] ++ zeros 5 ++ toLE 8 11 ++ toLE 8 6 ++ toLE 8 4096 ++ toLE 4 n ++ toLE 2 10
/-- The members 0 and 1024 listed. -/
def startS : State := (loadS [planA]).put 4098 [0, 4]
theorem test_job_start_hyps : meets (sent startS 0x0102 (startPar 2)) 0x0102 .inline (fun c s1 => c.z 19 5 && c.z 54 10 && (s1.tenant? c.tenant).any (fun t => s1.jobStartStatus c t planA == (s1, stOK)) &&
      s1.idsAt (c.f 40 8) 2 == [0, 1024] && s1.alive 1024 && s1.cas.groups == []) = true := by decide +kernel
theorem test_job_start : after (.jobStart 0 0) (sent startS 0x0102 (startPar 1)) (fun u => replied u == [0, 7, 1, 0, 0] && u.work.jobs.map (fun j => (j.handle, j.st, j.jobId, j.seed, j.windows)) == [(1, .paused, 6, 11, [(8192, 4096, 7)])]) = true ∧
    after (.jobStart 0 0) (sent startS 0x0102 (startPar 2)) (fun u => u.work.jobs.map (·.st) == [.starting] && waits u == [.jobStart 1] && u.cas.groups.map (fun g => (g.gid, g.vc, g.low, g.step, g.members)) == [(10, 1, true, true, [0, 1024])]) = true := by decide +kernel
/-- Job 3 of the plan, of one member. -/
def jobP : Job := { jobA with plan := 1, members := [0], windows := [] }
/-- Whether the command's packet finds job 3. -/
def jobMeets (j : Job) (op : Nat) (par : Bytes) (q : Cmd → State → Bool) : Bool :=
  meets (sent (jobS 0 j) op par) op .inline fun c s1 => s1.job? (c.f 16 2) == some j && j.tenant == c.tenant && q c s1
/-- The state of every job. -/
def states (u : State) : List JobState := u.work.jobs.map (·.st)
theorem test_job_pause : jobMeets jobP 0x0103 (toLE 2 3) (fun c _ => c.z 18 46) = true ∧
    after (.jobPause 0 0) (sent (jobS 0 { jobP with openStep := some 4 }) 0x0103 (toLE 2 3)) (fun u => states u == [.pausing] && u.work.jobs.map (·.pauseAt) == [some 5] && waits u == [.jobPause 3]) = true ∧
    after (.jobPause 0 0) (sent (jobS 0 { jobP with st := .paused, lastClosed := some 9 }) 0x0103 (toLE 2 3)) (fun u => replied u == [0, 7, 9, 0, 0]) = true ∧
    after (.jobPause 0 0) (sent (jobS 0 { jobP with st := .stopping }) 0x0103 (toLE 2 3)) (fun u => replied u == [stBusy, 7, 0, 0, 0]) = true ∧
    after (.jobPause 0 0) (sent (jobS 0 { jobP with st := .failed }) 0x0103 (toLE 2 3)) (fun u => replied u == [stBadParam, 7, 0, 0, 0]) = true := by decide +kernel
theorem test_job_resume : jobMeets { jobP with st := .paused } 0x0104 (toLE 2 3) (fun c _ => c.z 18 46) = true ∧
    after (.jobResume 0 0) (sent (jobS 0 { jobP with st := .paused, runLeft := some 4 }) 0x0104 (toLE 2 3)) (fun u => replied u == [0, 7, 0, 0, 0] && states u == [.running] && u.work.jobs.map (·.runLeft) == [none]) = true ∧
    after (.jobResume 0 0) (sent (jobS 0 { jobP with st := .stopped }) 0x0104 (toLE 2 3)) (fun u => replied u == [stBadParam, 7, 0, 0, 0]) = true := by decide +kernel
theorem test_job_stop : jobMeets { jobP with lastClosed := some 9 } 0x0105 (toLE 2 3) (fun c s1 => c.z 18 46 && s1.kernelsOf 3 == []) = true ∧
    after (.jobStop 0 0) (sent (jobS 0 { jobP with lastClosed := some 9, openStep := some 10, windows := [(8192, 4096, 7)] }) 0x0105 (toLE 2 3)) (fun u => replied u == [0, 7, 9, 0, 0] && states u == [.stopped] && u.work.jobs.map (·.windows) == [[]]) = true ∧
    after (.jobStop 0 0) (sent (jobS 0 { jobP with st := .failed, lastClosed := some 9 }) 0x0105 (toLE 2 3)) (fun u => replied u == [0, 7, 9, 0, 0]) = true := by decide +kernel
theorem test_step_run : let p := toLE 2 3 ++ zeros 2 ++ toLE 4 7
    jobMeets { jobP with st := .paused, stepped := true } 0x0106 p (fun c _ => c.z 18 2 && c.z 24 40 && c.f 20 4 == 7) = true ∧
    after (.stepRun 0 0) (sent (jobS 0 { jobP with st := .paused, stepped := true }) 0x0106 p) (fun u => states u == [.running] && u.work.jobs.map (·.runLeft) == [some 7] && waits u == [.stepRun 3]) = true ∧
    after (.stepRun 0 0) (sent (jobS 0 { jobP with st := .paused }) 0x0106 p) (fun u => replied u == [stBadParam, 7, 0, 0, 0]) = true ∧
    after (.stepRun 0 0) (sent (jobS 0 { jobP with stepped := true }) 0x0106 p) (fun u => replied u == [stBusy, 7, 0, 0, 0]) = true := by decide +kernel

/-! Steps. -/

/-- Job 3 in step 4 with its one entry in a state. -/
def jobE (e : EntryState) : Job := { jobP with lastClosed := some 3, openStep := some 4, entries := [e, .waiting], summed := true }
theorem test_step_open : let s := jobS 1 { jobP with lastClosed := some 3 }
    s.mayOpen { jobP with lastClosed := some 3 } = true ∧ s.steps planAt = 2 ∧ s.skipsNonFinite jobP = true ∧
    after (.stepOpen 3) s (fun u => u.work.jobs.map (fun j => (j.openStep, j.entries, j.summed)) == [(some 4, [.waiting, .waiting], false)]) = true ∧
    (jobS 1 { jobP with st := .paused }).mayOpen { jobP with st := .paused } = false := by decide +kernel
theorem test_step_entry : (jobS 0 (jobE .waiting)).entryReady (jobE .waiting) 0 4 = true ∧
    after (.stepEntryStart 3) (jobS 0 (jobE .waiting)) (fun u => u.work.jobs.map (·.entries) == [[.running, .waiting]] && u.work.kernels.map (·.entry) == [some (3, 0)]) = true := by decide +kernel
theorem test_step_end : let s := jobS 0 { jobE (.done 0) with entries := [.done 0, .done 0] }
    s.rolloutOf 3 = none ∧ (jobE (.done 0)).entriesDone = false ∧
    after (.stepWorkEnd 3) s (fun u => u.work.jobs.map (fun j => (j.lastClosed, j.openStep, j.closedSteps)) == [(some 4, none, 1)]) = true := by decide +kernel
theorem test_step_end_leaf : let j := { jobE (.done 0) with entries := [.done 0, .done 0], members := [1024, 0], rank := 1 }
    treeBelow 2 1 = [] ∧ after (.stepWorkEnd 3) (jobS 0 j) (fun u => u.work.jobs.map (fun j => (j.workEnded, j.arrived, j.sentUp, j.openStep)) == [(true, true, true, some 4)] && u.fab.tx.map (·.ty) == [0x29]) = true := by decide +kernel
theorem test_step_timeout : let j := { jobE .waiting with policy := { CkptPolicy.reset with stepTimeoutS := 5 } }
    after (.stepTimeout 3) { jobS 0 j with clk := { base.clk with nowUs := j.openUs + 5000000 } } (fun u => states u == [.failed] && u.work.jobs.map (·.openStep) == [none]) = true := by decide +kernel
theorem test_step_early : let j := { jobE .waiting with policy := { CkptPolicy.reset with stepTimeoutS := 5 } }
    let s := { jobS 0 j with clk := { base.clk with nowUs := j.openUs + 4999999 } }
    after (.stepTimeout 3) s (fun u => u == s) = true ∧
    after (.stepWorkEnd 3) (jobS 1 { jobE (.done 0) with entries := [.done 0, .done 0], summed := false }) (fun u => u.work.jobs.map (·.workEnded) == [false]) = true := by decide +kernel
theorem test_skip_sum : let j := { jobE (.done 0) with entries := [.done 0, .done 0], summed := false }
    (jobS 1 j).skipsNonFinite j = true ∧ (jobS 1 j).reduced j = true ∧
    after (.skipCountSum 3) { jobS 1 j with cas := { base.cas with groups := [{ grpA with vc := 1, members := [0] }] } }
      (fun u => u.cas.colls.map (fun r => (r.op, r.gid, r.count, r.who)) == [(9, 9, 1, .sum 3)]) = true := by decide +kernel

/-! Packets of other members. -/

/-- A job of two members, this one of rank `r`. -/
def jobM (r : Nat) : Job := { jobP with members := if r = 0 then [0, 1024] else [1024, 0], rank := r }
/-- Its state with a packet from module 1024. -/
def pktS (j : Job) (p : Pkt) : State := let s := jobS 0 j; { s with fab := { s.fab with rx := [{ p with src := 1024 }] } }
theorem test_job_control : (pktS (jobM 0) (ctlPkt 0x20 0 5 1 (toLE 8 6))).fab.rx.map (fun p => ctlFieldsOk p 16 8) = [true] ∧
    after .jobControl (pktS (jobM 0) (ctlPkt 0x20 0 5 1 (toLE 8 6))) (fun u => states u == [.pausing] && u.work.jobs.map (·.pauseAt) == [some 6]) = true ∧
    after .jobControl (pktS { jobM 0 with st := .paused } (ctlPkt 0x20 0 5 2 (toLE 8 0))) (fun u => states u == [.running]) = true ∧
    after .jobControl (pktS (jobM 0) (ctlPkt 0x20 0 5 3 (toLE 8 0))) (fun u => states u == [.stopped]) = true ∧
    after .jobControl (pktS (jobM 0) (ctlPkt 0x20 0 5 4 (toLE 8 6))) (fun u => u.work.jobs.map (·.guardNext) == [some (0, 6)]) = true ∧
    after .jobControl (pktS (jobM 0) (ctlPkt 0x20 0 5 (5 + 2 * 256) (toLE 8 6))) (fun u => u.work.jobs.map (·.ckptAt) == [some (2, 6)]) = true := by decide +kernel
theorem test_job_control_early : after .jobControl (pktS { jobM 0 with st := .starting } (ctlPkt 0x20 0 5 1 (toLE 8 6))) (fun u => states u == [.starting] && u.work.jobs.map (·.pauseAt) == [some 6]) = true ∧
    after .jobControl (pktS { jobM 0 with st := .pausing } (ctlPkt 0x20 0 5 2 (toLE 8 0))) (fun u => states u == [.pausing] && u.work.jobs.map (·.resumeNext) == [true]) = true := by decide +kernel
theorem test_job_failed : let p := ctlPkt 0x2C 0 5 0 (toLE 8 4 ++ [14] ++ zeros 7)
    ctlFieldsOk p 0 16 = true ∧ zeroAt p.payload 9 7 = true ∧ after .jobFailed (pktS (jobM 0) p) (fun u => states u == [.failed] && u.tel.eventSerial == 1) = true := by decide +kernel
/-- ARRIVE for a step with a risk. -/
def arrivePkt (step risk : Nat) : Pkt := ctlPkt 0x29 0 5 0 (toLE 8 5 ++ toLE 8 step ++ toLE 8 risk)
theorem test_arrive : ctlFieldsOk (arrivePkt 0 65535) 0 24 = true ∧ treeBelow 2 0 = [1] ∧
    after .arrive (pktS (jobM 0) (arrivePkt 0 65535)) (fun u => u.work.jobs.map (·.arrivals) == [[(1, 65535)]]) = true ∧
    (let j := { jobM 0 with members := [32, 1056, 0, 1024], rank := 2, openStep := some 0, arrived := true, workEnded := true }
     treeBelow 4 2 = [3] ∧ treeAbove 4 2 = 0 ∧ after .arrive (pktS j (arrivePkt 0 7)) (fun u => u.work.jobs.map (·.sentUp) == [true] && u.fab.tx.map (fun p => (p.dest, fld p.payload 16 8)) == [(32, 7)]) = true) := by decide +kernel
theorem test_release : let j := { jobM 1 with openStep := some 4, arrived := true, workEnded := true, sentUp := true }
    let p := ctlPkt 0x2A 0 5 0 (toLE 8 5 ++ toLE 8 4 ++ toLE 8 0)
    ctlFieldsOk p 0 24 = true ∧ treeAbove 2 1 = 0 ∧ after .releaseStep (pktS j p) (fun u => u.work.jobs.map (fun j => (j.lastClosed, j.openStep)) == [(some 4, none)]) = true ∧
    after .releaseStep (pktS { j with st := .pausing, pauseAt := some 4 } p) (fun u => states u == [.paused]) = true := by decide +kernel

/-! Checkpoints. -/

theorem test_guard_off : after (.guardGroupSet 0 0) (sent (jobS 0 (jobM 0)) 0x0604 (toLE 2 3 ++ [0]))
    (fun u => u.host.running == [] && u.work.jobs.map (·.guardNext) == [some (0, 1)]) = true := by decide +kernel
theorem test_guard_set : let j := { jobM 0 with members := [0, 1024, 32, 1056] }
    let p := toLE 2 3 ++ [2]
    (jobS 0 j).guardOk j 2 = true ∧ (jobS 0 j).segBytes j 2 = 8192 ∧ (jobS 0 j).guardOk j 4 = false ∧ jobMeets j 0x0604 p (fun c s1 => c.z 19 45 && s1.trains j) = true ∧
    after (.guardGroupSet 0 0) (sent (jobS 0 j) 0x0604 p) (fun u => replied u == [0, 7, 8192, 32768, 0] && u.work.jobs.map (·.guardNext) == [some (2, 1)]) = true ∧
    after (.guardGroupSet 0 0) (sent (jobS 0 j) 0x0604 (toLE 2 3 ++ [4])) (fun u => replied u == [stBadParam, 7, 0, 0, 0]) = true := by decide +kernel
theorem test_ckpt_take : let p := toLE 2 3 ++ [3]
    jobMeets jobP 0x0601 p (fun c s1 => c.z 19 45 && c.f 18 1 == 3 && s1.trains jobP) = true ∧
    after (.ckptTake 0 0) (sent (jobS 0 { jobP with openStep := some 4 }) 0x0601 p) (fun u => waits u == [.ckptTake 3] && u.work.jobs.map (·.ckptAt) == [some (3, 5)]) = true ∧
    after (.ckptTake 0 0) (sent (jobS 0 { jobP with st := .paused, lastClosed := some 4 }) 0x0601 p) (fun u => u.work.jobs.map (fun j => j.ckpt.map fun c => (c.step, c.left, c.status)) == [some (4, 3, 0)]) = true := by decide +kernel
theorem test_ckpt_policy : let p := toLE 2 3 ++ [0, 5] ++ toLE 2 0 ++ zeros 2 ++ toLE 4 0 ++ toLE 4 0 ++ toLE 4 0 ++ toLE 4 0 ++ toLE 4 9
    jobMeets jobP 0x0603 p (fun c _ => c.z 22 2 && c.z 45 3 && c.f 44 1 == 0 && c.f 56 8 == 0) = true ∧
    after (.ckptPolicy 0 0) (sent (jobS 0 jobP) 0x0603 p) (fun u => replied u == [0, 7, 0, 0, 0] && u.work.jobs.map (fun j => (j.policy.auto, j.policy.sharedEvery, j.policy.threshold, j.policy.minS, j.policy.maxS, j.policy.stepTimeoutS)) ==
      [(true, 5, 16384, 60, 21600, 9)]) = true := by decide +kernel
/-- CKPT_RESTORE of old job 4, whose two members were 32 and 1024, listed in the block; the packet's block is at 0x8000. -/
theorem test_restore_status : let j := { jobM 0 with st := .paused }
    (jobS 0 j).restoreStatus j 2 [32, 1024] = stOK ∧ (jobS 0 j).restoreStatus j 2 [1024, 32] = stBadParam := by decide +kernel
theorem test_ckpt_interval : let j := { jobP with policy := { CkptPolicy.reset with fleetFailures := 1, fleetHours := 1 }, costUs := some 8 }
    after (.ckptIntervalRecompute 3) (jobS 0 j) (fun u => u.work.jobs.map (·.intervalUs) == [240166]) = true := by decide +kernel
/-- A checkpoint of step 4 with one tier left. -/
def jobC (tier : Nat) : Job := { jobP with ckpt := some { step := 4, tiers := 2 ^ tier, left := 2 ^ tier, slot := 0, slotSeq := 0, status := 0, costUs := 0, good := 0 } }
theorem test_commit_hyps : (jobS 0 (jobC 0)).resv.resHold = false ∧ (jobS 0 (jobC 0)).resv.sparePct ≠ 0 ∧ (jobS 0 (jobC 1)).attServes 0 = true ∧
    after (.ckptCommit 3 0 true) (jobS 0 (jobC 0)) (fun u => u.work.jobs.map (·.ckpt.isNone) == [true] && u.resv.slot0.st == 2 && u.resv.slotSeq == 1) = true ∧
    after (.ckptCommit 3 1 true) (jobS 0 { jobC 1 with policy := { CkptPolicy.reset with sharedAddr := 4096, sharedBytes := 65536 } })
      (fun u => u.host.pcieWrites.map (fun w => (w.1, w.2.1)) == [(0, 8192), (0, 4096)]) = true ∧
    after (.ckptCommit 3 0 true) (let s := jobS 0 (jobC 0); { s with resv := { s.resv with resHold := true } }) (fun u => u.work.jobs == [jobC 0]) = true := by decide +kernel

/-! Parity and restore packets. -/

/-- Four members in two guard groups; this one is of rank 2, the host of group 0's segment 0. -/
def jobG : Job := { jobM 0 with members := [1024, 32, 0, 1056], rank := 2, guardK := 2 }
theorem test_pdata : let p : Pkt := { reqP 0x15 0 2 512 [3, 5] with j := 0 }
    let s := (pktS jobG p).put 0x220200 [1]
    jobG.guards 1024 = true ∧ s.trains jobG = true ∧ parityHost 4 2 0 0 false = 2 ∧ parityHost 4 2 0 0 true = 3 ∧ parityHost 4 2 0 1 true = 2 ∧
    after .pdata s (fun u => u.bytesAt 0x220200 3 == [2, 5, 0] && answers u == [(5, 77, 0, [])]) = true := by decide +kernel
/-- RESTORE_DONE while a restore runs. -/
def restoreA : RestoreRun :=
  { source := 0, oldJob := 4, step := none, oldMembers := [32, 1024], sharedAtt := 0, sharedAddr := 0, holdings := [], done := [], chosen := none, rebuild := none,
    stage := 0, groups := [], zeroed := false, resync := false, position := 0 }
theorem test_restore_done : let p := ctlPkt 0x22 0 5 0 (toLE 8 4)
    ctlFieldsOk p 0 8 = true ∧ after .restoreDone (pktS { jobM 0 with st := .paused, restore := some restoreA } p) (fun u => u.work.jobs.map (fun j => j.restore.map (·.done)) == [some [1024]]) = true := by decide +kernel

/-! ### Media, KV caches, the input pipeline -/

/-- The state with a packet whose block `b` lies at 0x700000. -/
def sentBlk (s : State) (op : Nat) (b : Bytes) : State :=
  let t := ((s.host.atts[0]?).map (·.tenant)).getD 0
  let bs := toLE 2 op ++ toLE 2 1 ++ toLE 4 7 ++ toLE 2 t ++ toLE 6 0 ++ padTo 48 (toLE 8 0x700000 ++ toLE 4 b.length)
  (s.put 0x700000 b).onRing 0 0 fun r => { r with taken := [{ index := 0, loc := .hub 0 0, bytes := bs, uid := 0, timedOut := false }] }
/-- STREAM_OPEN of an AV1 encode stream of 64 by 64 in class `cls`, two buffers at 0x10000, records at 0x40000. -/
def encPar (cls bufs : Nat) : Bytes :=
  [1, 3, BitVec.ofNat 8 cls, 8] ++ toLE 2 64 ++ toLE 2 64 ++ toLE 2 bufs ++ zeros 2 ++ toLE 4 512 ++ toLE 8 0x10000 ++ toLE 8 0xD000 ++ toLE 8 0x40000 ++ [4] ++ zeros 7 ++
    toLE 8 0x50000 ++ toLE 8 0x20000 ++ toLE 4 1000 ++ zeros 4 ++ [0, 0, 0, 0] ++ toLE 2 64 ++ toLE 2 64 ++ toLE 4 30 ++ toLE 4 1 ++ toLE 4 64000 ++ toLE 4 64000 ++
    toLE 2 30 ++ toLE 2 0 ++ [26, 10, 255] ++ zeros 25
theorem test_stream_open_hyps : meets (sentBlk base 0x0401 (encPar 1 2)) 0x0401 (.block 128) (fun c s1 => openRanges c.par && !s1.blocked 8 0 0 &&
      (s1.tenant? c.tenant).any (fun t => (openAreas c.par).all fun r => inPart t false true r.1 r.2) && s1.contexts true == 0 && s1.domOn 3 && openConsistent c.par) = true := by decide +kernel
theorem test_stream_open : after (.streamOpen 0 0) (sentBlk base 0x0401 (encPar 1 2)) (fun u => replied u == [0, 7, 1, 9104, 0xD000] && u.media.streams.map (fun x => (x.handle, x.cls, x.marks.length, x.st)) == [(1, 1, 2, .opened)]) = true ∧
    after (.streamOpen 0 0) (sentBlk base 0x0401 (encPar 4 2)) (fun u => replied u == [stBadParam, 7, 0, 0, 0]) = true := by decide +kernel
/-- Buffers in a tile window of the partition, and one past the end of HBM. -/
theorem test_open_hbm : openHbm (encPar 1 2) = true ∧ openHbm (fldBytes (encPar 1 2) 0 16 ++ toLE 8 (hbmEnd - 0x19000) ++ (encPar 1 2).drop 24) = false ∧
    after (.streamOpen 0 0) (sentBlk base 0x0401 (fldBytes (encPar 1 2) 0 16 ++ toLE 8 (cisAddr 0 0) ++ (encPar 1 2).drop 24)) (fun u => replied u == [stDenied, 7, 0, 0, 0]) = true := by decide +kernel
/-- The open stream, and the module with streams. -/
def encX : Stream := Stream.fresh 4 1 (encPar 1 2)
def strS (xs : List Stream) : State := { base with media := { base.media with streams := xs } }
/-- A decode stream. -/
def decX : Stream := { encX with encode := false, cfg := [0, 1, 1, 8] ++ (encPar 1 2).drop 4 |>.take 48 |> padTo 128 }
/-- STREAM_FEED of one entry at 0x8000. -/
def feedPar : Bytes := toLE 2 4 ++ zeros 6 ++ toLE 8 0x8000 ++ toLE 4 1
theorem test_feed_hyps : meets (sent ((strS [encX]).put 0x8000 ([2, 1] ++ zeros 14 ++ [5])) 0x0403 feedPar) 0x0403 .inline (fun c s1 => s1.stream? (c.f 16 2) == some encX && c.z 18 6 && c.z 36 28 && c.f 32 4 == 1 &&
      (s1.tenant? c.tenant).any (fun t => inPart t false false (c.f 24 8) 32) && s1.cmdRead (c.f 24 8) 32 == (s1, stOK) && encX.entryOk (s1.bytesAt (c.f 24 8) 32)) = true := by decide +kernel
theorem test_feed : after (.streamFeed 0 0) (sent ((strS [encX]).put 0x8000 ([2, 1] ++ zeros 14 ++ [5])) 0x0403 feedPar) (fun u => replied u == [0, 7, 0, 0, 0] && u.media.streams.map (fun x => x.queue.map fun q => (q.tag, q.key)) == [[(5, true)]]) = true ∧
    after (.streamFeed 0 0) (sent ((strS [encX]).put 0x8000 [2, 2]) 0x0403 feedPar) (fun u => replied u == [stBadParam, 7, 0, 0, 0]) = true ∧
    after (.streamFeed 0 0) (sent ((strS [decX]).put 0x8000 [5]) 0x0403 feedPar) (fun u => replied u == [0, 7, 0, 0, 0] && u.media.streams.map (fun x => (x.unread.length, x.outq.map fun o => fld o 3 1)) == [(0, [1])]) = true ∧
    after (.streamFeed 0 0) (sent ((strS [{ decX with marks := List.replicate 2 { Marks.clear with ref := true } }]).put 0x8000 ([1, 0, 0, 0, 4] ++ zeros 3 ++ toLE 8 0x8000)) 0x0403 feedPar)
      (fun u => waits u == [.streamFeed 4] && u.media.streams.map (·.unread.length) == [1]) = true ∧
    ((strS [{ decX with unread := [{ uid := 9, last := false, tag := 0, addr := 0x8000, len := 4, order := 0, feedUs := 0 }] }]).put 0x8000 [1]).readAll.media.streams.map (fun x => x.chunks.map (·.bytes)) = [[[1, 0, 0, 0]]] := by decide +kernel
theorem test_close : meets (sent (strS [encX]) 0x0402 (toLE 2 4)) 0x0402 .inline (fun c s1 => s1.stream? (c.f 16 2) == some encX && c.z 19 45) = true ∧
    after (.streamClose 0 0) (sent (strS [encX]) 0x0402 (toLE 2 4)) (fun u => u.media.streams.map (fun x => (x.st, x.queue.length)) == [(.draining, 0)] && waits u == [.streamClose 4 0]) = true ∧
    after (.streamClose 0 0) (sent (strS [encX]) 0x0402 (toLE 2 4 ++ [1])) (fun u => u.media.streams == [] && replied u == [0, 7, 0, 0, 0]) = true ∧
    after (.streamClose 0 0) (sent (strS [{ encX with st := .held, marks := [{ Marks.clear with output := true }] }]) 0x0402 (toLE 2 4)) (fun u => replied u == [stBusy, 7, 0, 0, 0]) = true := by decide +kernel
theorem test_priority : after (.streamPriority 0 0) (sent (strS [encX]) 0x0404 (toLE 2 4 ++ [3])) (fun u => replied u == [0, 7, 0, 0, 0] && u.media.streams.map (·.cls) == [3]) = true ∧
    after (.streamPriority 0 0) (sent (strS [{ encX with st := .draining }]) 0x0404 (toLE 2 4 ++ [3])) (fun u => replied u == [stBusy, 7, 0, 0, 0]) = true ∧
    after (.streamPriority 0 0) (sent (strS [encX, { encX with handle := 5, cls := 3, cfg := fldBytes encX.cfg 0 64 ++ toLE 4 4499001 ++ zeros 60 }]) 0x0404 (toLE 2 4 ++ [3])) (fun u => replied u == [stNoResource, 7, 0, 0, 0]) = true := by decide +kernel
/-- A picture in the queue. -/
def queuedA (order : Nat) : Queued := { uid := none, order := order, tag := 5, buf := 1, key := true, feedUs := 0, last := false }
/-- Two streams with a picture each, their record slots free; the first is of a lower class. -/
def readyS : State := ((strS [{ encX with queue := [queuedA 1] }, { encX with handle := 5, cls := 2, queue := [queuedA 2] }]).put 0x40001 [1])
theorem test_picture_start : readyS.readAll.mediaOn.bestReady true = readyS.bestReady true ∧ (readyS.bestReady true).map (fun r => (r.cls, r.handle)) = some (2, 5) ∧
    after (.pictureStart true) readyS (fun u => u.media.encPipes.map (fun p => (p.1, p.2.handle)) == [(0, 5)] && u.media.streams.map (·.queue.length) == [1, 0]) = true ∧
    (strS [encX]).readAll.mediaOn.bestReady true = none := by decide +kernel
/-- A pipe that runs. -/
def pipeA (got : Option Config.Picture) : PipeRun := { handle := 4, pic := queuedA 1, buf := some 0, got := got }
theorem test_picture_coded_hyps : let s := strS [encX]
    encX.place = some 0 ∧ ({ s with media := { s.media with encPipes := [(3, pipeA none)] } }.media.encPipes.find? fun p => p.1 == 3) = some (3, pipeA none) := by decide +kernel
/-- A sequence header of H.264 High 5.2, and a decoded picture of 64 by 64 that breaks its standard or not. -/
def seqA : Config.SeqHeader := { profile := .h264High, mainTier := true, level := 52, depth := 8, chroma := 1, width := 64, height := 64, store := 1 }
def picA (broken : Bool) : Config.Picture :=
  { header := seqA, access := .idr, broken := broken, refs := [], ptype := 0, planes := [9], motion := [], chunk := 0, lastChunk := 0, keep := [0], outputs := [] }
theorem test_picture_decoded : let s := strS [{ decX with marks := [{ Marks.clear with work := true }, Marks.clear], skipped := 3 }]
    let t := fun b => { s with media := { s.media with decPipes := [(15, pipeA (some (picA b)))] } }
    after (.pictureComplete false 15) (t false) (fun u => u.media.streams.map (fun x => (x.marks.map (fun m => (m.work, m.ref)), x.skipped)) == [([(false, true), (false, false)], 3)] && u.bytesAt 0x10000 2 == [9, 0]) = true ∧
    after (.pictureComplete false 15) (t true) (fun u => u.media.streams.map (fun x => (x.outq.map fun o => (fld o 0 1, fld o 4 2, fld o 44 2), x.marks.map Marks.free)) == [([(stCorrupt, 0xFFFF, 3)], [true, true])]) = true ∧
    ({ decX with chunks := [{ tag := 0, order := 0, feedUs := 0, bytes := [], good := false }] }).lost (picA false) = true := by decide +kernel
/-- R474: 5.2 is H.264's highest level; R490: a CRA picture is no random access point of H.264; R492: one record, then discards. -/
theorem test_decode_limits : decodable 1 seqA = true ∧ decodable 1 { seqA with level := 60 } = false ∧ decodable 2 seqA = false ∧
    decodable 2 { seqA with profile := .hevcMain10, chroma := 0 } = false ∧ decX.headerOk seqA = true ∧ decX.headerOk { seqA with store := 2 } = false ∧
    randomAccess 1 .cra = false ∧ randomAccess 2 .cra = true ∧
    (decX.passOver 9 { picA false with access := .inner }).skipped = 1 ∧
    (let y := decX.passOver 9 { picA false with header := { seqA with width := 72 } }; (y.sync, y.outq.map fun o => fld o 0 1) = (.overLimit, [stLimit])) ∧
    (({ decX with sync := .overLimit } : Stream).passOver 9 { picA false with header := { seqA with width := 72 } }).outq = [] := by decide +kernel
/-- R478: 4:0:0 chroma is 2^(depth - 1), 512 in two bytes. -/
theorem test_mono : pictureBytes 1 1 10 0 [3, 0xFF] = [3, 3, 0, 2, 0, 2] ∧ pictureBytes 1 1 8 1 [3, 4, 5] = [3, 4, 5] := by decide +kernel
/-- R479: a decoded picture's buffer has OUTPUT once its record is written, and not before. -/
theorem test_output_mark : let x : Stream := { decX with marks := [{ Marks.clear with ref := true }, Marks.clear], outq := [[0, 0, 0, 0, 0, 0]] }
    x.remark.marks.map (·.ref) = [true, false] ∧ (x.report [0, 0, 0, 0, 0, 0] []).marks.map (fun m => (m.ref, m.output)) = [(false, true), (false, false)] ∧
    ({ encX with units := [(0, 8), (64, 70)], outq := [zeros 32 ++ [6, 0, 0, 0]] } : Stream).reported = [(0, 8)] := by decide +kernel
/-- R498, R499: period 2 over two columns; picture 1 refreshes column 1, and column 0 reads luma below 48 only. -/
theorem test_refresh : let x : Stream := { encX with cfg := fldBytes encX.cfg 0 72 ++ [1, 1, 30, 0] ++ toLE 2 128 ++ fldBytes encX.cfg 78 20 ++ toLE 2 2 ++ fldBytes encX.cfg 100 28 }
    x.refreshWidth = 1 ∧ x.intraAt false 1 1 = true ∧ x.intraAt false 1 0 = false ∧ x.refreshes false 0 = true ∧
    (x.refFor (List.replicate 100 7) false 1 0).map (·.toNat) = List.replicate 48 7 ++ List.replicate 52 0 ∧ x.refFor [7] false 1 1 = [] ∧ x.refFor [7] false 0 1 = [7] := by decide +kernel

/-! KV caches and rollouts. -/

/-- A cache of one layer, one head, two sequences, four frames. -/
def kvA : Kv := { handle := 6, tenant := 1, layers := 1, heads := 1, group := 1, dim := 64, maxSeqs := 2, table := 0x100000, pool := 0x200000, frames := 4 }
def kvS : State := { base with media := { base.media with kvs := [kvA] } }
/-- KV_CREATE of a cache like it. -/
def createKv : Bytes := toLE 2 1 ++ [1, 1] ++ toLE 2 64 ++ [3, 0] ++ toLE 2 2 ++ zeros 6 ++ toLE 8 0x100000 ++ toLE 8 0x200000 ++ toLE 4 4
theorem test_kv_create : kvA.tableBytes = 45056 ∧ meets (sent base 0x0A01 createKv) 0x0A01 .inline (fun c s1 => c.z 23 1 && c.z 26 6 && c.z 52 12 && s1.mem.lineErr == [] &&
      (s1.tenant? c.tenant).any fun t => inPart t false true kvA.table kvA.tableBytes && inPart t false true kvA.pool (4 * kvA.frameBytes)) = true ∧
    after (.kvCreate 0 0) (sent base 0x0A01 createKv) (fun u => replied u == [0, 7, 1, 65536, 45056] && u.media.kvs.map (·.handle) == [1]) = true ∧
    inPart ten false true 0x1FFFFFFF000 45056 = false := by decide +kernel
/-- Sequence 1 with one page (frame 2) and 3 positions. -/
def seqS (st : Nat) : State := (kvS.put (0x100000 + 4096 + 64) ([BitVec.ofNat 8 st, 0, 1, 0] ++ toLE 4 3)).put (0x100000 + 8192 + 16384) (toLE 4 (2 ^ 31 + 2))
theorem test_kv_append : kvS.kvFreeSeq kvA = some 0 ∧ (seqS 1).kvState kvA 1 = 1 ∧ (seqS 1).kvLen kvA 1 = 3 ∧ (seqS 1).kvPages kvA 1 = 1 ∧
    meets (sent (seqS 1) 0x0A02 (toLE 2 6 ++ toLE 2 1 ++ toLE 4 1 ++ toLE 8 0x4000)) 0x0A02 .inline (fun c s1 => c.z 32 32 && s1.cmdRead (c.f 24 8) 256 == (s1, stOK) && s1.mem.lineErr == []) = true ∧
    after (.kvAppend 0 0) (sent kvS 0x0A02 (toLE 2 6 ++ toLE 2 0xFFFF ++ toLE 4 0)) (fun u => replied u == [0, 7, 0, 0, 0] && u.kvState kvA 0 == 1) = true := by decide +kernel
theorem test_kv_release : after (.kvRelease 0 0) (sent (seqS 1) 0x0A03 (toLE 2 6 ++ toLE 2 1)) (fun u => replied u == [0, 7, 0, 0, 0] && u.kvState kvA 1 == 0 && u.numAt (0x100000 + 8192 + 16384) 4 == 0) = true ∧
    after (.kvRelease 0 0) (sent (seqS 2) 0x0A03 (toLE 2 6 ++ toLE 2 1)) (fun u => replied u == [stBusy, 7, 0, 0, 0]) = true ∧
    after (.kvRelease 0 0) (sent (seqS 1) 0x0A03 (toLE 2 6 ++ toLE 2 1 ++ [1] ++ zeros 3 ++ toLE 4 0)) (fun u => replied u == [0, 7, 0, 0, 0] && u.kvLen kvA 1 == 0 && u.kvPages kvA 1 == 0) = true ∧
    after (.kvRelease 0 0) (sent (seqS 1) 0x0A03 (toLE 2 6 ++ toLE 2 0xFFFF)) (fun u => replied u == [0, 7, 0, 0, 0] && u.media.kvs == []) = true := by decide +kernel
/-- A serving job (no plan image), and a rollout entry: sequence 1, no stream, 2 tokens. -/
def rollS (st : Nat) : State := let s := (seqS st).put 0x6000 (toLE 2 1 ++ toLE 2 0xFFFF ++ toLE 4 2); { s with work := { s.work with jobs := [jobA] } }
/-- ROLLOUT_STEP of it. -/
def rollPar : Bytes := toLE 2 3 ++ toLE 2 6 ++ toLE 4 1 ++ toLE 8 0x6000
theorem test_rollout : meets (sent (rollS 1) 0x0A04 rollPar) 0x0A04 .inline (fun c s1 => s1.kv? (c.f 18 2) == some kvA && c.z 32 32 && s1.job? (c.f 16 2) == some jobA && !s1.trains jobA && s1.cmdRead 0x6000 32 == (s1, stOK) &&
      s1.rollStatus c kvA jobA [s1.bytesAt 0x6000 32] == stOK) = true ∧
    after (.rolloutStep 0 0) (sent (rollS 1) 0x0A04 rollPar) (fun u => waits u == [.rollout 3] && u.media.rollouts.map (fun r => (r.job, r.cache, r.entries.map fun e => (e.seq, e.tokens, e.len0))) == [(3, 6, [(1, 2, 3)])]) = true ∧
    after (.rolloutStep 0 0) (sent (rollS 2) 0x0A04 rollPar) (fun u => replied u == [stBusy, 7, 0, 0, 0]) = true := by decide +kernel
/-- A rollout that puts pictures to stream 4. -/
def rolloutA : Rollout := { uid := 0, job := 3, cache := 6, entries := [{ seq := 1, stream := 4, tokens := 2, pictures := 3, tag := 40, len0 := 3, queued := 2 }] }
theorem test_rollout_picture : let s := fun m => { strS [{ encX with rollout := 3, marks := m }] with work := { base.work with jobs := [{ jobA with openStep := some 1 }] } }
    let t := fun m => { s m with media := { (s m).media with rollouts := [rolloutA] } }
    after (.rolloutPicture 0 0) (t [Marks.clear, Marks.clear]) (fun u => u.media.streams.map (fun x => (x.queue.map fun q => (q.buf, q.tag), x.rollout)) == [([(1, 42)], 4)] && u.media.rollouts.map (·.entries.map (·.queued)) == [[3]]) = true ∧
    after (.rolloutPicture 0 0) (t [Marks.clear, { Marks.clear with source := true }]) (fun u => u.media.rollouts == [rolloutA]) = true := by decide +kernel

/-! The input pipeline. -/

/-- PIPE_CONFIGURE: batches of 1 in 2 buffers at 0x10000, 2 samples, manifest in channel memory, clips of one pixel. -/
def pipeCfg (batch : Nat) : Bytes :=
  toLE 2 3 ++ [1, 0] ++ toLE 4 batch ++ toLE 4 1 ++ toLE 4 0 ++ toLE 8 0x60000 ++ toLE 8 2 ++ toLE 8 0x10000 ++ toLE 8 0x11000 ++ toLE 8 0x100000 ++ toLE 8 0x100000 ++
    toLE 8 0x40000 ++ toLE 8 0x50000 ++ [4, 0] ++ toLE 2 1 ++ toLE 2 1 ++ toLE 2 1 ++ toLE 2 1 ++ toLE 2 1 ++ toLE 2 1 ++ toLE 2 4 ++ toLE 2 4 ++ toLE 2 8 ++ zeros 4 ++ toLE 8 4096 ++ zeros 16
/-- The pipeline. -/
def pipeP : Pipeline :=
  { tenant := 1, st := .running, cfg := pipeCfg 1, seqNo := 0, readNo := 0, buffers := [], samples := [], assembled := 0, rejected := 0, retries := 0, waitUs := 0,
    starved := List.replicate 5 0, blocked := List.replicate 5 0, items := List.replicate 5 0, recSeq := 0, logSerial := 0 }
/-- The module with it and its job. -/
def pipeS (p : Pipeline) : State :=
  let s := { base with work := { base.work with jobs := [jobA] } }
  { s with media := { s.media with pipelines := [p] } }
theorem test_pipe_configure : pipeCfgOk (pipeCfg 1) = true ∧
    after (.pipeConfigure 0 0) (sentBlk base 0x0501 (pipeCfg 1)) (fun u => replied u == [0, 7, 0, 0, 0] && u.media.pipelines.map (fun p => (p.st, p.seqNo)) == [(.stopped, 0)]) = true ∧
    after (.pipeConfigure 0 0) (sentBlk (pipeS pipeP) 0x0501 (pipeCfg 1)) (fun u => replied u == [stBusy, 7, 0, 0, 0]) = true ∧
    after (.pipeConfigure 0 0) (sentBlk base 0x0501 (pipeCfg 0)) (fun u => replied u == [stBadParam, 7, 0, 0, 0]) = true := by decide +kernel
theorem test_pipe_hbm : let b := fldBytes (pipeCfg 1) 0 32 ++ toLE 8 (cisAddr 0 0) ++ (pipeCfg 1).drop 40
    pipeHbm (pipeCfg 1) = true ∧ pipeCfgOk b = true ∧ pipeHbm b = false ∧
    after (.pipeConfigure 0 0) (sentBlk base 0x0501 b) (fun u => replied u == [stDenied, 7, 0, 0, 0]) = true := by decide +kernel
/-- A batch in a buffer. -/
def batchA (n st : Nat) (w : List (Nat × Nat × Nat × Nat)) : Batch := { n := n, epoch := 0, batch := n, st := st, issued := 0, written := w }
theorem test_pipe_start : let p := { pipeP with st := .stopped, buffers := [batchA 0 2 []] }
    meets (sent (pipeS p) 0x0502 []) 0x0502 .inline (fun c s1 => c.z 16 48 && s1.pipe? c.tenant == some p && s1.contexts false == 0 && s1.job? (p.f 0 2) == some jobA) = true ∧
    after (.pipeStart 0 0) (sent (pipeS p) 0x0502 []) (fun u => replied u == [0, 7, 0, 0, 0] && u.media.pipelines.map (fun p => (p.st, p.seqNo)) == [(.running, 1)]) = true ∧
    after (.pipeStart 0 0) (sent (pipeS pipeP) 0x0502 []) (fun u => replied u == [stBusy, 7, 0, 0, 0]) = true := by decide +kernel
theorem test_pipe_stop : after (.pipeStop 0 0) (sent (pipeS { pipeP with buffers := [batchA 0 2 [], batchA 1 1 []] }) 0x0503 []) (fun u => replied u == [0, 7, 0, 0, 0] && u.media.pipelines.map (fun p => (p.st, p.buffers.map (·.n))) == [(.stopped, [0])]) = true ∧
    after (.pipeStop 0 0) (sent (pipeS { pipeP with st := .stopped }) 0x0503 []) (fun u => replied u == [stBusy, 7, 0, 0, 0]) = true := by decide +kernel
theorem test_pipe_seek : let p := { pipeP with st := .stopped }
    let par := fun e => toLE 4 5 ++ toLE 4 e ++ toLE 8 1 ++ toLE 8 1
    p.batches = 2 ∧ after (.pipeSeek 0 0) (sent (pipeS p) 0x0504 (par 5)) (fun u => replied u == [0, 7, 1, 1, 5 + 5 * 2 ^ 32] && u.media.pipelines.map (·.seqNo) == [11] && u.tel.events == []) = true ∧
    after (.pipeSeek 0 0) (sent (pipeS p) 0x0504 (par 4)) (fun u => (replied u).head? == some stRngResync && u.tel.events.map (·.code) == [0x42]) = true := by decide +kernel
theorem test_batch_start : pipeP.st = .running ∧ after (.batchFillStart 1) (pipeS pipeP) (fun u => u.media.pipelines.map (fun p => (p.seqNo, p.buffers.map (·.n))) == [(1, [0])] && u.byteAt 0x10000 == 1) = true ∧
    after (.batchFillStart 1) (pipeS { pipeP with seqNo := 2, buffers := [batchA 0 2 []] }) (fun u => u == pipeS { pipeP with seqNo := 2, buffers := [batchA 0 2 []] }) = true := by decide +kernel
/-- A sample of batch 0 at a stage; its manifest entry: local memory at 0x70000, 4 bytes. -/
def entryA (kind : BitVec 8) : Bytes := [kind, 1, 0, 0] ++ toLE 4 4 ++ toLE 8 0x70000 ++ toLE 8 4 ++ toLE 8 0
def sampleA (k : Nat) : Sample :=
  { n := 0, slot := 0, epoch := 0, sample := 1, at_ := k, entry := entryA 1, bytes := [1], failed := false, stalled := false, status := stOK, cause := 0, w := 4, h := 4, depth := 8,
    nframes := 8, codec := 1, store := 1, frames := [(8, [7])], clip := [7, 7, 7, 7, 7, 7], flip := true }
/-- A pipeline with that sample. -/
def withSample (x : Sample) : State := pipeS { pipeP with seqNo := 1, buffers := [batchA 0 1 []], samples := [x] }
/-- What is left of the samples. -/
def samples (u : State) : List (Nat × Nat × Nat) := u.media.pipelines.flatMap fun p => p.samples.map fun x => (x.at_, x.status, x.cause)
theorem test_fetch_next_hyps : let p := { pipeP with seqNo := 1, buffers := [batchA 0 1 []] }
    p.front 2 = none ∧ p.front 0 = none ∧ (p.buffers.filter fun b => b.st == 1 && decide (b.issued < p.live b.batch)) = [batchA 0 1 []] ∧ p.inStage 0 = 0 ∧ p.count 1 = 0 := by decide +kernel
theorem test_fetch_body : after (.fetchSample 1 none) ((withSample (sampleA 2)).put 0x70000 [1, 2, 3, 4]) (fun u => samples u == [(3, 0, 0)] && u.media.pipelines.map (fun p => p.samples.map (·.bytes)) == [[[1, 2, 3, 4]]]) = true ∧
    after (.fetchSample 1 none) (withSample { sampleA 2 with entry := entryA 2 }) (fun u => u.media.pipelines.map (fun p => p.samples.map (·.failed)) == [[true]] && u.tel.events.map (·.code) == [0x40]) = true := by decide +kernel
theorem test_fetch_retry : let x := { sampleA 2 with entry := entryA 2, failed := true, stalled := true }
    (withSample x).attServes 0 = true ∧ after (.fetchRetry 1 (some [1, 2, 3, 4])) (withSample x) (fun u => samples u == [(3, 0, 0)] && u.media.pipelines.map (·.retries) == [1]) = true := by decide +kernel
theorem test_admission_reject : let x := { sampleA 1 with entry := entryA 9 }
    (withSample x).admission 1 pipeP x = some (stCorrupt, 1) ∧ after (.admission 1) (withSample x) (fun u => samples u == [(5, stCorrupt, 1)]) = true := by decide +kernel
/-- A sample whose header parses within the limits is admitted. -/
theorem test_admission (h : Config.SampleHeader) (hh : Config.sampleHeader 1 [1] = some h) (hs : h = { codec := 1, seq := { seqA with width := 4, height := 4 }, frames := some 8 }) :
    (withSample (sampleA 1)).admission 1 pipeP (sampleA 1) = none := by
  subst hs
  have e : fld (sampleA 1).entry 1 1 = 1 := by decide +kernel
  have b : (sampleA 1).bytes = [1] := rfl
  unfold State.admission
  rw [e, b, hh]
  decide +kernel
/-- A record of a sample's stream, and the stream of the sample. -/
def shownA (st : Nat) (last : Bool) : Shown := { status := st, w := if last then 0 else 4, h := if last then 0 else 4, depth := 8, planes := [1], count := 0, last := last }
def feedA (l : List Shown) : Stream := { Stream.fresh 0x10001 1 (decX.cfg) with feeds := some (0, 0), shown := l }
/-- The module with the sample at the decode stage and its stream. -/
def decoding (l : List Shown) : State := let s := withSample (sampleA 3); { s with media := { s.media with streams := [feedA l] } }
/-- R526: a picture in a pipe holds the pipeline in STOPPING. -/
theorem test_pipe_stopping : let s := pipeS pipeP
    let busy := { s with media := { s.media with streams := [{ feedA [] with handle := 4 }], decPipes := [(0, pipeA none)] } }
    after (.pipeStop 0 0) (sent busy 0x0503 []) (fun u => waits u == [.pipeStop 1] && u.media.pipelines.map (·.st) == [.stopping]) = true ∧
    after (.pipeStop 0 0) (sent (decoding []) 0x0503 []) (fun u => replied u == [0, 7, 0, 0, 0] && u.media.streams == [] && u.media.pipelines.map (·.st) == [.stopped]) = true := by decide +kernel
/-- R515: eight frames of the size declared pass; a broken picture that is used rejects the sample at once; a frame short does too. -/
theorem test_decode : let ok := List.replicate 8 (shownA 0 false)
    (decoding (ok ++ [shownA 0 true])).decodedSample { pipeP with samples := [sampleA 3] } = some (sampleA 3, feedA (ok ++ [shownA 0 true]), true) ∧
    after (.decodeSample 1) (decoding (ok ++ [shownA 0 true])) (fun u => samples u == [(4, 0, 0)] && u.media.streams == []) = true ∧
    after (.decodeSample 1) (decoding (List.replicate 8 (shownA stCorrupt false))) (fun u => samples u == [(5, stCorrupt, 5)] && u.media.streams == []) = true ∧
    after (.decodeSample 1) (decoding (ok.drop 1 ++ [shownA 0 true])) (fun u => samples u == [(5, stCorrupt, 5)]) = true := by decide +kernel
/-- A sample without a stream gets one when the pool has room (its pictures are the engine's). -/
theorem test_decode_open : let s := withSample { sampleA 3 with bytes := [] }
    s.decodedSample { pipeP with samples := [{ sampleA 3 with bytes := [] }] } = none ∧ s.buffersUsed = 0 ∧ s.blocked 8 0 0 = false ∧ s.domOn 3 = true ∧
    s.sampleStream 1 (sampleA 3) = none ∧ (pipeP.feedStream (sampleA 3) 0x10001 0 0).f 8 2 = 2 := by decide +kernel
theorem test_augment : after (.augment 1) (withSample (sampleA 4)) (fun u => samples u == [(5, 0, 0)]) = true := by decide +kernel
theorem test_assemble : pipeP.entryAt 0 0 = 0x10040 ∧ after (.assemble 1) (withSample (sampleA 5)) (fun u => samples u == [] && u.bytesAt 0x10040 16 == [1, 0, 0, 0, 0, 0, 0, 0, 0, 0, 0x80, 0x3F, 0, 0, 1, 0] &&
      u.media.pipelines.map (fun p => (p.assembled, p.rejected, p.buffers.map (·.st))) == [(1, 0, [2])] && u.byteAt 0x10000 == 2 && u.bytesAt 0x20000 6 == [7, 7, 7, 7, 7, 7]) = true ∧
    after (.assemble 1) (withSample { sampleA 5 with status := stCorrupt, cause := 2 }) (fun u => u.media.pipelines.map (·.rejected) == [1] && u.tel.events.map (·.code) == [0x41] && u.numAt 0x10048 4 == 0) = true := by decide +kernel
theorem test_batch_complete : let p := { pipeP with buffers := [batchA 0 1 [(0, 1, stCorrupt, 2)]] }
    p.live 0 = 1 ∧ ((pipeS p).completeBatches 1 9).media.pipelines.map (fun p => (p.buffers.map (·.st), p.logSerial)) = [([2], 1)] := by decide +kernel
theorem test_pipe_status : after (.pipeStatusRewrite 1) (pipeS pipeP) (fun u => u.numAt 0x40000 8 == 1 && u.byteAt 0x40008 == 2 && u.media.pipelines.map (·.recSeq) == [1]) = true := by decide +kernel
theorem test_epoch_bounds : permHalf 1 = 1 ∧ permHalf 4 = 1 ∧ permHalf 5 = 2 ∧ permHalf (2 ^ 40) = 20 := by decide +kernel

/-! ### Rings, replies, tenants -/

/-- The module with ring `i` of attachment 0 as `r`. -/
def withRing (s : State) (i : Nat) (r : Ring) : State := s.onRing 0 i fun _ => r
/-- Ring `i` of attachment 0 afterwards. -/
def ringIs (u : State) (i : Nat) (q : Ring → Bool) : Bool := (u.ring? 0 i).any q
/-- No tenant; attachment 0 unbound. -/
def loose : State := { base with host := { base.host with tenants := [], atts := List.replicate 4 { Attachment.reset with link := true } } }
theorem test_reply : let c : RunCmd := { runCmd 0x0201 .fence with irq := true, loc := .hub 3 15 }
    let u := (busy base 0x0201 .fence).endCmd c 4 1 2 3
    sgets 0 u.host.hub (hubKey 3 (0x400 + 32 * 15)) 32 = replyBytes 4 0x0201 7 1 2 3 ∧ u.host.msix = [(0, 0)] ∧
    ((busy base 0x0201 .fence).endCmd { c with timedOut := true } 4 1 2 3).host.hub = base.host.hub := by decide +kernel
theorem test_doorbell_bad : base.attUp 0 = true ∧ after (.doorbellWrite 0 0 17) base (fun u => ringIs u 0 fun r => r.badTail && r.tail == 0) = true ∧
    after (.doorbellWrite 0 1 2) (withRing base 1 { Ring.reset with tail := 3 }) (fun u => ringIs u 1 fun r => r.badTail && r.tail == 3) = true ∧
    after (.doorbellWrite 0 0 0xFFFFFFFF) (withRing base 0 { Ring.reset with tail := 0xFFFFFFFF, head := 0xFFFFFFFE }) (fun u => ringIs u 0 fun r => !r.badTail) = true := by decide +kernel
theorem test_doorbell : let s := withRing base 0 { Ring.reset with enable := true }
    let own := { s with host := { s.host with hub := sput 0 (sput 0 s.host.hub (hubKey 0 0x401) [1]) (hubKey 0 0) [6, 0, 0, 0, 9] } }
    after (.doorbellWrite 0 0 1) own (fun u => ringIs u 0 fun r => r.head == 1 && r.taken.map (fun t => t.bytes.take 5) == [[6, 0, 0, 0, 9]] && !r.ownStall) = true ∧
    after (.doorbellWrite 0 0 1) s (fun u => ringIs u 0 fun r => r.head == 0 && r.tail == 1 && r.ownStall) = true := by decide +kernel
theorem test_doorbell_read : let s := { withRing base 2 { Ring.reset with tail := 9 } with host := { (withRing base 2 { Ring.reset with tail := 9 }).host with
        atts := (withRing base 2 { Ring.reset with tail := 9 }).host.atts.map fun x => { x with posted := [(4096, [1, 2])] } } }
    after (.doorbellRead 0 2) s (fun u => u.host.readData == [9, 0, 0, 0, 0, 0, 0, 0] && u.bytesAt 4096 2 == [1, 2]) = true := by decide +kernel
theorem test_fence_register : after (.attFenceRead 0) base (fun u => u.host.readData == [1, 0, 0, 0, 0, 0, 0, 0]) = true := by decide +kernel
theorem test_ring_enable : base.boundTo 0 = some ten ∧ loose.boundTo 0 = none ∧ inPart ten false true 0x10000 (64 * 4096) = true ∧
    after (.ringEnable 0 1 12) (withRing base 1 { Ring.reset with base := 0x10000, replyBase := 0x80000 }) (fun u => ringIs u 1 fun r => r.enable && r.log2 == 12 && !r.window && !r.baseDenied) = true ∧
    after (.ringEnable 0 1 4) (withRing base 1 { Ring.reset with base := 0x20000000000 }) (fun u => ringIs u 1 fun r => !r.enable && r.baseDenied) = true ∧
    after (.ringEnable 0 0 4) loose (fun u => ringIs u 0 fun r => r.enable && r.window) = true ∧
    after (.ringEnable 0 1 4) loose (fun u => ringIs u 1 fun r => !r.enable && r.baseDenied) = true := by decide +kernel
theorem test_ring_disable : after (.ringDisable 0 7 5) (withRing base 7 { Ring.reset with enable := true }) (fun u => ringIs u 7 fun r => !r.enable && r.log2 == 5) = true := by decide +kernel
theorem test_bar2 : base.bar2Ok 0 4096 4 = true ∧ loose.bar2Ok 0 4096 4 = false ∧
    after (.bar2Read 0 4096 4 false) (base.put 4098 [7]) (fun u => u.host.readData == [0, 0, 7, 0]) = true ∧
    after (.bar2Read 0 4096 4 false) (loose.put 4098 [7]) (fun u => u.host.readData == zeros 4 && (u.host.atts[0]?).any (·.oob)) = true ∧
    after (.bar2Write 0 4096 [1, 2]) base (fun u => (u.host.atts[0]?).any (fun x => x.posted == [(4096, [1, 2])]) && u.bytesAt 4096 1 == [0]) = true ∧
    after (.bar2Write 0 4096 [1, 2]) loose (fun u => (u.host.atts[0]?).any fun x => x.posted == [] && x.oob) = true := by decide +kernel
theorem test_timeout : let c : RunCmd := { runCmd 0x0201 .fence with timeoutMs := 5 }
    let s := { base with host := { base.host with running := [c] } }
    after (.replyTimeout 0) s (fun u => replied u == [stTimeout, 7, 0, 0, 0] && u.host.running == [{ c with timedOut := true }]) = true := by decide +kernel
theorem test_bad_opcode : 0x0B01 ∉ assignedOpcodes ∧ after (.badOpcode 0 0) (sent base 0x0B01 []) (fun u => replied u == [stBadOpcode, 7, 0, 0, 0] && ringIs u 0 fun r => r.taken == []) = true := by decide +kernel
theorem test_register_write : after (.registerWrite (.bar0 0) 0x8008 (2 ^ 40)) base (fun u => u.host.atts.length == 4) = true := by decide +kernel

theorem test_status : meets (sent base 0x0001 []) 0x0001 .inline (fun c _ => c.z 16 48) = true ∧
    after (.statusCmd 0 0) (sent base 0x0001 []) (fun u => replied u == [0, 7, bringUpCode .ready + base.pow.cause % 256 * 256 + 65536, base.pow.selftest.toNat, 5000]) = true := by decide +kernel
theorem test_identify : meets (sent base 0x0002 []) 0x0002 .inline (fun c _ => c.z 16 48) = true := by decide +kernel
/-- ATTACH for two tiles, hold 60 s; RECLAIM with a ticket. -/
def attachPar (mode tiles ticket : Nat) : Bytes := [BitVec.ofNat 8 mode, BitVec.ofNat 8 tiles, 0, 0] ++ toLE 4 (if mode = 0 then 60 else 0) ++ toLE 8 ticket
theorem test_attach_new : loose.freeTiles = [0, 1, 2, 3, 4, 5, 6, 7] ∧ meets (sent loose 0x0003 (attachPar 0 2 0)) 0x0003 .inline (fun c s1 => c.tenant == 0 && c.f 16 1 == 0 && c.z 18 2 && c.z 32 32 && c.f 20 4 == 60 &&
      (s1.tenant? 1).isNone && !bitOf s1.host.clearHub.toNat 0) = true ∧
    after (.attach 0 0) (sent loose 0x0003 (attachPar 0 2 0)) (fun u => u.host.tenants.map (fun t => (t.id, t.tiles, t.att, t.holdS)) == [(1, 3, some 0, 60)]) = true ∧
    after (.attach 0 0) (sent base 0x0003 (attachPar 0 2 0)) (fun u => replied u == [stDenied, 7, 0, 0, 0]) = true := by decide +kernel
/-- Tenant 1 as an orphan, ticket 99, ring 0 of its attachment saved. -/
def orphan : Tenant := { ten with att := none, ticket := 99, saved := [{ Ring.reset with base := 0x10000, tail := 5 }] }
def orphanS (t : Tenant) : State := { loose with host := { loose.host with tenants := [t] } }
theorem test_attach_reclaim : after (.attach 0 0) (sent (orphanS orphan) 0x0003 (attachPar 1 0 99)) (fun u => u.host.tenants.map (fun t => (t.att, t.saved.length)) == [(some 0, 0)] && ringIs u 0 fun r => r.base == 0x10000 && r.tail == 5) = true ∧
    after (.attach 0 0) (sent (orphanS orphan) 0x0003 (attachPar 1 0 98)) (fun u => replied u == [stAuthFailed, 7, 0, 0, 0]) = true ∧
    after (.attach 0 0) (sent (orphanS { orphan with att := some 1 }) 0x0003 (attachPar 1 0 99)) (fun u => replied u == [stDenied, 7, 0, 0, 0]) = true := by decide +kernel
theorem test_detach : meets (sent base 0x0004 [1]) 0x0004 .inline (fun c s1 => c.z 17 47 && c.f 16 1 == 1 && s1.tenant? c.tenant == some ten) = true ∧
    after (.detach 0 0) (sent base 0x0004 [1]) (fun u => u.host.tenants.map (fun t => (t.att, t.lastAtt)) == [(none, 0)] && (u.host.atts[0]?).any (·.tenant == 0)) = true ∧
    after (.detach 0 0) (sent base 0x0004 [0]) (fun u => replied u == [0, 7, 0, 0, 0] && u.host.tenants == [] && u.host.clearTiles == 0xFF && bitOf u.host.clearHub.toNat 0) = true := by decide +kernel
theorem test_attachment_reset : after (.attachmentReset 0) (withRing base 0 { Ring.reset with enable := true }) (fun u => u.host.tenants.map (·.att) == [none] && (u.host.atts[0]?).any (fun x => !x.link && x.tenant == 0) && ringIs u 0 fun r => !r.enable) = true := by decide +kernel
theorem test_link_up : 0 < base.attCount ∧ base.domOn 2 = true ∧ after (.attachmentLinkUp 0 true) { base with host := { base.host with atts := [Attachment.reset] } } (fun u => u.host.atts == [{ Attachment.reset with link := true }]) = true := by decide +kernel
theorem test_orphan : after (.orphanWarn 1) (orphanS orphan) (fun u => (u.host.atts[0]?).any (·.orphanWarn)) = true ∧
    after (.orphanHoldExpiry 1) (orphanS orphan) (fun u => u.host.tenants == []) = true ∧ after (.orphanWarn 1) base (fun u => u == base) = true := by decide +kernel
theorem test_clear_done : let s := { base with host := { base.host with clearTiles := 0x81, clearHub := 3 } }
    after (.tenantClearDone true 1) (s.onChan 8 7 fun _ => chanOn) (fun u => u.host.clearHub == 2 && u.chan? 8 7 == some Chan.reset && u.host.clearTiles == 0x81) = true ∧
    after (.tenantClearDone false 7) (s.put (7 * groupBytes) [5]) (fun u => u.host.clearTiles == 1 && u.byteAt (7 * groupBytes) == 0) = true := by decide +kernel

/-! ### Power, resets, firmware, sideband -/

/-- The module with the power block changed. -/
def pow (f : Power → Power) : State := { base with pow := f base.pow }
/-- DOMAIN_POWER of a mask. -/
def domPar (mask on : Nat) : Bytes := toLE 4 mask ++ toLE 1 on
theorem test_domain_power : meets (sent base 0x0702 (domPar 0x800 0)) 0x0702 .inline (fun c s1 => c.z 21 43 && s1.holdsAll c.tenant && bitOf (s1.tilesOf c.tenant) 7 && !s1.tileJob 7) = true ∧
    domainsLegal (0xFFFFF - 0x800) = true ∧ domainsLegal (0xFFFFF - 0x80000) = false ∧
    after (.domainPower 0 0) (sent base 0x0702 (domPar 0x800 0)) (fun u => replied u == [0, 7, 0, 0, 0] && !u.tileOn 7 && u.tileOn 6) = true ∧
    after (.domainPower 0 0) (sent base 0x0702 (domPar 0x80000 0)) (fun u => replied u == [stBadParam, 7, 0, 0, 0]) = true ∧
    after (.domainPower 0 0) (sent (pow fun p => { p with domains := 0xFF7FF }) 0x0702 (domPar 0x800 1)) (fun u => waits u == [.domains 0x800] && u.tileOn 7) = true := by decide +kernel
theorem test_sleep : meets (sent base 0x0704 []) 0x0704 .inline (fun c s1 => c.z 16 48 && s1.holdsAll c.tenant && s1.host.tenants.length == 1 && s1.work.jobs == [] && s1.work.kernels == [] && s1.media.streams == [] &&
      s1.media.pipelines == [] && s1.media.kvs == [] && s1.host.running == []) = true ∧
    after (.sleepCmd 0 0) (sent base 0x0704 []) (fun u => u.pow.asleep && u.pow.domains == 3 && u.host.tenants == []) = true ∧
    after (.sleepCmd 0 0) (sent lacking 0x0704 []) (fun u => replied u == [stBusy, 7, 0, 0, 0]) = true := by decide +kernel
theorem test_wake : after (.wakeCmd 0 0) (sent base 0x0705 (toLE 2 0)) (fun u => replied u == [0, 7, 0, 0, 0]) = true ∧
    after (.wakeCmd 0 0) (sent base 0x0705 (toLE 2 4096)) (fun u => replied u == [stMemberLost, 7, 0, 0, 0]) = true ∧
    after (.wakeCmd 0 0) (sent (withPort link0) 0x0705 (toLE 2 1024)) (fun u => replied u == [0, 7, 0, 0, 0] && u.fab.tx.map (fun p => (p.ty, p.dest)) == [(0x2E, 1024)]) = true := by decide +kernel
/-- Asleep. -/
def asleep : State := pow fun p => { p with asleep := true, domains := 3, bringUp := .none }
theorem test_wakes : after .wakeN asleep (fun u => !u.pow.asleep && u.pow.bringUp == .selftest && u.domOn 19) = true ∧ after .wakeN base (fun u => u == base) = true ∧
    after .wakeControlPacket { asleep with fab := { asleep.fab with rx := [{ ctlPkt 0x2E 0 0 0 [] with src := 32 }] } } (fun u => !u.pow.asleep && u.domOn 2) = true ∧
    after .sbWake asleep (fun u => !u.pow.asleep) = true := by decide +kernel
/-- BLOCK_RESET of a block of tile 7. -/
def blockPar (target index : Nat) : Bytes := toLE 1 target ++ [7] ++ toLE 1 index
theorem test_block_reset : meets (sent base 0x0801 (blockPar 2 15)) 0x0801 .inline (fun c s1 => c.z 19 1 && c.z 22 42 && (blockOf c).target == 2 && (blockOf c).index == 15 && s1.blockIdle (blockOf c) && bitOf (s1.tilesOf c.tenant) 7) = true ∧
    after (.blockReset 0 0) (sent (base.onCore 7 15 fun c => { c with checksumFaults := 9, fenced := true }) 0x0801 (blockPar 2 15)) (fun u => replied u == [0, 7, 0, 0, 0] && u.core? 7 15 == some { Core.reset with checksumFaults := 9 }) = true ∧
    after (.blockReset 0 0) (sent (base.onTile 7 fun x => { x with refBuf := [(1, [2])] }) 0x0801 (blockPar 5 0)) (fun u => replied u == [0, 7, 0, 0, 0] && (u.tiles[7]?).any (·.refBuf == [])) = true ∧
    after (.blockReset 0 0) (sent lacking 0x0801 (blockPar 2 15)) (fun u => replied u == [stDenied, 7, 0, 0, 0]) = true := by decide +kernel
/-- A block reset of the spillway engine of tile 7 that waits. -/
def brA : BlockReset := { uid := 0, tenant := 1, target := 5, tile := 7, index := 0, stage := 0, late := false, items := 0 }
/-- The engine has a write outstanding. -/
def brS : State := { busy (base.onTile 7 fun x => { x with spwDone := some doneA }) 0x0801 .blockReset with work := { base.work with blockResets := [brA] } }
theorem test_block_busy : after (.blockReset 0 0) (sent { base with work := { base.work with blockResets := [brA] } } 0x0801 (blockPar 5 0)) (fun u => replied u == [stBusy, 7, 0, 0, 0]) = true ∧
    after (.blockReset 0 0) (sent (base.onTile 7 fun x => { x with spwDone := some doneA }) 0x0801 (blockPar 5 0)) (fun u => waits u == [.blockReset] && u.work.blockResets.map (·.stage) == [0]) = true := by decide +kernel
theorem test_block_late : after (.blockIdleTimeout 0) brS (fun u => u.tel.events.map (·.code) == [0x63] && u.work.blockResets.all fun b => b.late && b.stage != 0) = true := by decide +kernel
/-- MODULE_RESET of a module. -/
def resetPar (m : Nat) : Bytes := toLE 2 m ++ zeros 6 ++ toLE 8 5
theorem test_module_reset : meets (sent base 0x0802 (resetPar 0)) 0x0802 .inline (fun c s1 => c.z 18 6 && c.z 32 32 && s1.holdsAll c.tenant && s1.fab.modId == some (c.f 16 2) && s1.pow.auxGood && s1.pow.episode.isNone && s1.host.running == []) = true ∧
    after (.moduleReset 0 0) (sent base 0x0802 (resetPar 0)) (fun u => u.pow.cause == 6 && u.pow.episode == some false && u.host.tenants == []) = true ∧
    after (.moduleReset 0 0) (sent lacking 0x0802 (resetPar 0)) (fun u => replied u == [stDenied, 7, 0, 0, 0]) = true ∧
    after (.moduleReset 0 0) (sent base 0x0802 (resetPar 4096)) (fun u => replied u == [stMemberLost, 7, 0, 0, 0]) = true ∧
    after (.moduleReset 0 0) (sent (withPort link0) 0x0802 (resetPar 1024)) (fun u => waits u == [.peerReset 0] && u.fab.remotes.map (·.dest) == [1024]) = true := by decide +kernel
theorem test_reset_req : let p : Pkt := { ctlPkt 0x2F 0 5 0 [] with src := 1024, tag := 0 }
    ctlFieldsOk p 0 0 = true ∧ after .resetReq (got jobA p) (fun u => u.pow.cause == 7 && u.pow.episode == some false) = true ∧
    after .resetReq (got { jobA with jobId := 6 } p) (fun u => u.fab.tx.map (fun q => (q.ty, q.code)) == [(0x21, stDenied)] && u.pow.episode.isNone) = true := by decide +kernel
theorem test_scrub_policy : meets (sent base 0x0803 ([0x80, 0] ++ toLE 2 168)) 0x0803 .inline (fun c s1 => c.z 17 1 && c.z 20 44 && c.f 18 2 == 168 && s1.holdsMask c.tenant (c.f 16 1)) = true ∧
    after (.scrubPolicy 0 0) (sent base 0x0803 ([0x80, 0] ++ toLE 2 0)) (fun u => replied u == [0, 7, 0, 0, 0] && mg7 u fun m => m.nextHours == 24) = true ∧
    after (.scrubPolicy 0 0) (sent lacking 0x0803 ([0x80, 0] ++ toLE 2 2)) (fun u => replied u == [stDenied, 7, 0, 0, 0]) = true := by decide +kernel

/-! Supplies and resets. -/

theorem test_power_on : State.reset.pow.auxHeld = false ∧ after .powerOn (pow fun p => { p with auxGood := false }) (fun u => u.pow.auxGood && u.pow.sources == [.powerOn] && u.pow.domains == 1 && u.pow.cause == 1) = true := by decide
theorem test_aux_timer : after .auxMainTimer State.reset (fun u => u.pow.auxHeld && u.pow.sources == []) = true := by decide
theorem test_main_good : let s := pow fun p => { p with mainGood := false, domains := 3, bringUp := .none }
    after (.mainGood 45600) s (fun u => u.pow.mainGood && u.pow.domains == 0xFFFFF && u.pow.bringUp == .boot) = true ∧ after (.mainGood 45599) s (fun u => u == s) = true := by decide +kernel
theorem test_power_fail : base.driven = true ∧ after (.powerFail 44399) base (fun u => u.pow.powerFail && u.resv.resHold && !u.issues 0 && !u.tel.alertN && u.tel.persistent.map (·.code) == [0x60]) = true ∧
    after .holdupEnd (pow fun p => { p with powerFail := true }) (fun u => u.pow.cause == 2 && u.pow.episode == some true && u.pow.domains == 1) = true ∧
    after .mainStable (pow fun p => { p with sources := [.mainLoss, .watchdog] }) (fun u => u.pow.sources == [.watchdog]) = true := by decide +kernel
/-- 17 R608, R609: of the sources of one sample the widest reach, then the lowest code; an idle step ends the sample. -/
theorem test_at_once : after .watchdog (pow fun p => { p with sampled := [.thermalTrip, .resetPin] }) (fun u => u.pow.cause == 3) = true ∧
    after (.thermalTrip 7 1150) (pow fun p => { p with sampled := [.firmware] }) (fun u => u.pow.cause == 5 && u.pow.sampled == [.firmware, .thermalTrip]) = true ∧
    (pow fun p => { p with sampled := [.firmware] }).tick.pow.sampled = [] := by decide +kernel
theorem test_aux_fail : after .auxFail base (fun u => !u.pow.auxGood && u.pow.domains == 0 && u.host.tenants == [] && !u.fab.originValid) = true := by decide +kernel
theorem test_reset_pin : after (.resetPin true) base (fun u => u.pow.cause == 3 && u.pow.episode == some true && u.pow.sources == [.resetPin] && u.fab.modId.isNone && u.pow.domains == 1) = true ∧
    after (.resetPin false) (pow fun p => { p with sources := [.resetPin] }) (fun u => u.pow.sources == []) = true := by decide +kernel
theorem test_watchdog : after .watchdog base (fun u => u.pow.cause == 4 && u.tel.persistent.map (·.code) == [0x62]) = true := by decide +kernel
theorem test_trip : after (.thermalTrip 7 1150) base (fun u => u.pow.cause == 5 && u.pow.episode == some false && !u.tel.thermTripN && u.domOn 1 && !u.domOn 2) = true ∧
    after (.thermalTrip 7 1149) base (fun u => u == base) = true ∧
    after .tripHoldExpiry (pow fun p => { p with sources := [.thermalTrip] }) (fun u => u.pow.sources == [] && u.tel.thermTripN) = true := by decide +kernel
theorem test_release_reset : Source.timed .watchdog = true ∧ Source.timed .resetPin = false ∧
    after (.resetRelease 9 true) (pow fun p => { p with episode := some false, reach := true, domains := 3, sources := [.watchdog] }) (fun u => u.pow.episode.isNone && u.pow.bringUp == .boot && u.pow.domains == 0xFFFFF && u.clk.resetUs == 5000000) = true ∧
    after (.resetRelease 9 true) (pow fun p => { p with episode := some true, sources := [.resetPin] }) (fun u => u.pow.episode == some true) = true := by decide +kernel
theorem test_release_ledger : let s := { pow fun p => { p with episode := some true, reach := false, domains := 1, sources := [] } with
      tiles := base.tiles.map fun x => { x with gov := { x.gov with guardLedger := 25 } } }
    after (.resetRelease 9 true) s (fun u => gov7 u fun g => g.guard == 25) = true ∧ after (.resetRelease 9 false) s (fun u => u.fab.slotId == 9 && gov7 u fun g => g.guard == 30) = true := by decide +kernel
theorem test_selftest : let s := pow fun p => { p with bringUp := .selftest }
    (∀ t ∈ List.range 8, s.groupReady t = true) ∧ after (.selftestComplete 0x800000000) s (fun u => u.pow.bringUp == .failed) = true ∧
    after (.selftestComplete 0x800000) s (fun u => u.pow.bringUp == .ready && (u.tiles[7]?).any (·.selfFence) && u.fab.loopback) = true := by decide +kernel

/-! Firmware, registers, sideband. -/

theorem test_fw_stage : let par := [1] ++ zeros 7 ++ toLE 8 0x10000 ++ toLE 8 objHeader
    meets (sent base 0x0901 par) 0x0901 .inline (fun c s1 => c.z 17 7 && c.z 40 24 && s1.holdsAll c.tenant && inPart ten false false (c.f 24 8) (c.f 32 8)) = true ∧ objForm 1 (zeros objHeader) = false ∧
    after (.fwStage 0 0) (sent base 0x0901 par) (fun u => replied u == [stBadParam, 7, 0, 0, 0]) = true := by decide +kernel
theorem test_fw_activate : after (.fwActivate 0 0) (sent { base with boot := { base.boot with stage2 := { copies with tryPending := true } } } 0x0902 [2, 2]) (fun u => replied u == [0, 7, 0, 0, 0] && u.boot.stage2 == copies) = true ∧
    after (.fwActivate 0 0) (sent { base with boot := { base.boot with stage2 := { copies with running := some 1 } } } 0x0902 [2, 1]) (fun u => replied u == [stBadParam, 7, 0, 0, 0]) = true ∧
    after (.fwActivate 0 0) (sent { base with boot := { base.boot with stage1 := { copies with copy0 := zeros 8 ++ toLE 4 6 } } } 0x0902 [1, 1]) (fun u => replied u == [0, 7, 0, 0, 0] && u.boot.counters.take 2 == [6, 0]) = true ∧
    after (.fwActivate 0 0) (sent base 0x0902 [3, 0]) (fun u => (replied u).head? == some stAuthFailed) = true := by decide +kernel
theorem test_fw_busy : (busy base 0x0901 .reservoir).fwBusy = true ∧ base.fwBusy = false ∧ base.resv.resHold = false ∧
    after (.fwActivate 0 0) (sent (busy base 0x0901 .reservoir) 0x0902 [2, 2]) (fun u => replied u == [stBusy, 7, 0, 0, 0]) = true := by decide +kernel
theorem test_key_manifest : let par := toLE 8 0x10000 ++ toLE 8 objHeader
    meets (sent base 0x0903 par) 0x0903 .inline (fun c _ => c.z 32 32) = true ∧ after (.keyManifest 0 0) (sent base 0x0903 par) (fun u => replied u == [stBadParam, 7, 0, 0, 0]) = true := by decide +kernel
/-- ATTEST of evidence without a plan at `dest`. -/
def attestPar (cap dest : Nat) : Bytes := [0, 0] ++ toLE 2 0xFFFF ++ toLE 4 cap ++ toLE 8 dest
theorem test_attest : meets (sent base 0x0005 (attestPar 3821 0x10000)) 0x0005 .inline (fun c s1 => c.z 17 1 && c.f 18 2 == 0xFFFF && c.f 20 4 == 3821 && inPart ten false true (c.f 24 8) (c.f 20 4) && !hbmAny s1.groupOff (c.f 24 8) (c.f 20 4) &&
      s1.mem.lineErr == []) = true := by decide +kernel
theorem test_registers : after (.registerWrite (.bar0 0) 0x1700 0x1FFF) base (fun u => ringIs u 7 fun r => r.base == 0x1000) = true ∧
    after (.registerWrite (.bar0 0) 0x1008 0x2FFF) base (fun u => ringIs u 0 fun r => r.replyBase == 0x2000) = true ∧
    after (.registerWrite (.bar0 0) 0x1028 5) (withRing base 0 { Ring.reset with badTail := true, ownStall := true, baseDenied := true }) (fun u => ringIs u 0 fun r => !r.badTail && r.ownStall && !r.baseDenied) = true ∧
    after (.registerWrite (.bar0 0) 0x10 2) { base with host := { base.host with atts := [{ Attachment.reset with link := true, oob := true, orphanWarn := true }] } } (fun u => u.host.atts.map (fun x => (x.oob, x.orphanWarn)) == [(true, false)]) = true := by decide +kernel
theorem test_sideband : base.i3cUp = true ∧ after (.i3cDynamicAddress 9) base (fun u => u.boot.dynAddr == some 9) = true ∧
    after (.carrierCap 4000) base (fun u => u.tel.carrierCap == 4000 && !u.tel.capRejected) = true ∧ after (.carrierCap 4001) base (fun u => u.tel.carrierCap == 4000 && u.tel.capRejected) = true ∧
    after (.fabricOrigin 0x8421) base (fun u => u.fab.origin == 0x421 && u.fab.originValid && u.fab.modId == some 0) = true := by decide +kernel
/-- The module in recovery. -/
def recS (f : Boot → Boot) : State := { pow fun p => { p with stage := 3 } with boot := f base.boot }
theorem test_recovery : base.recovering = false ∧ (recS id).recovering = true ∧
    after (.recoveryData 0x04030201) (recS fun b => { b with recOffset := 8 }) (fun u => u.boot.recOffset == 12 && sgets 0 u.boot.recBuf 7 6 == [0, 1, 2, 3, 4, 0]) = true ∧
    after .recoveryStart (recS id) (fun u => u.boot.rstate == 1) = true ∧ after .recoveryClear (recS fun b => { b with rstate := 3, recBuf := [(4, 1)] }) (fun u => u.boot.rstate == 0 && u.boot.recBuf == []) = true ∧
    after (.recoveryData 1) base (fun u => u == base) = true := by decide +kernel
theorem test_recovery_bad : after .recoveryVerified (recS fun b => { b with rstate := 1 }) (fun u => u.boot.rstate == 3 && u.boot.recReason == 1) = true := by decide +kernel

/-! ### The whole block -/

theorem test_step_front : step { base with pending := [.attFenceRead 0, .nop] } = exec (.attFenceRead 0) { base with pending := [.nop] } := rfl
theorem test_step_idle : step base = .next base.idle := rfl
theorem test_reset_memory : State.reset.memWf ∧ State.reset.boot.counters.length = 5 ∧ step State.reset = .next State.reset.idle := ⟨by decide, by decide, rfl⟩
/-- A memory with a byte listed in its form, and two that are not. -/
theorem test_memory_form : (base.put 4096 [1, 0, 2]).memWf ∧ ¬ { base with mem := { base.mem with cells := [⟨4096, 0⟩] } }.memWf ∧
    ¬ { base with mem := { base.mem with cells := [⟨4097, 1⟩, ⟨4096, 1⟩] } }.memWf := by decide +kernel
theorem test_counters_premise : ∀ i ∈ List.range 6, State.reset.protectedCounter i < 2 ^ 32 := by decide

/-! ### The boundary (19 R634, R636, R641, R647, R649, R650) -/

theorem test_connector : contactAt .a 2 = .transmit 0 true ∧ contactAt .b 63 = .receive 15 false ∧ contactAt .a 64 = .ret ∧
    contactAt .b 75 = .slotId 2 ∧ contactAt .a 69 = .reserved ∧ contactAt .b 80 = .presentN := by decide
theorem test_boundary : ({ base with boot := { base.boot with split := 2 } } : State).attLanes 3 = [12, 13, 14, 15] ∧
    ({ base with fab := { base.fab with slotId := 5 } } : State).i3cAddress = some 0x0D ∧
    laneOf (fibreOf false 15) = some (false, 15) ∧ fibreOf false 15 = 32 ∧
    ({ base with fab := { base.fab with sluices := false } } : State).throughLight 3 7 = some (2, 7) ∧
    linkCloses 2 = true ∧ linkCloses 3 = false := by decide
/-- 17 R592: a class waits for the class before it; with every class on, each rail carries its voltage. -/
theorem test_rails : let s : State := { base with pow := { base.pow with rails := [] } }
    s.classOn 12 .core = s ∧ (s.classOn 12 .analogue).pow.rails = [.vpp 0] ∧
    (s.railsUp 12).pow.rails = [.vpp 0, .vddc 0, .vddq 0] ∧ (s.railsUp 4).railMv (.vcore 0) = 750 ∧
    (s.railsUp 12).classOff 12 .core = s.railsUp 12 ∧ ((s.railsUp 12).railsDown 12).pow.rails = [] := by decide +kernel

end Sys2Proof.Tests
end

section
/-! PROOFS. The mover commands on a channel in the wrong state (02 R72, R83). -/

namespace Sys2Proof.Proofs
open Sys2Proof Sys2Proof.Machine Sys2Proof.Laws

variable {s s1 : State} {op att ring st : Nat} {kind : ParKind} {rc : RunCmd} {c : Cmd} {body : Cmd → State → State × CmdEnd}
  {x : Chan}

/-- A command whose body answers a status alone replies with it after the state its packet was taken from. -/
theorem startCmd_replies_st (h : s.starts op kind att ring rc c s1) (w : st ≠ stWait) (b : body c s1 = (s1, .st st)) :
    Replies (.next (s.startCmd op kind att ring body)) s1 rc st 0 0 0 :=
  congrArg Host.Outcome.next (startCmd_done h w b)

/-! ### Naming and using a channel -/

/-- A mover command finds its channel `x`: the tenant may name it, it exists, and no reset holds it. -/
structure ChanFound (s : State) (c : Cmd) (x : Chan) : Prop where
  named : s.nameChan c = stOK
  found : s.chan? (c.f 16 1) (c.f 17 1) = some x
  free : s.chanBlocked (c.f 16 1) (c.f 17 1) = false

/-- BUSY for a channel that stops, NO_RESOURCE for another. -/
def wrongStateStatus (x : Chan) : Nat := if x.stopping then stBusy else stNoResource

theorem wrongStateStatus_ne_ok (x : Chan) : wrongStateStatus x ≠ stOK := by
  unfold wrongStateStatus; split <;> decide

theorem wrongStateStatus_ne_wait (x : Chan) : wrongStateStatus x ≠ stWait := by
  unfold wrongStateStatus; split <;> decide

/-- Using a channel that stops or is disabled (02 R72, R83). -/
theorem useChan_wrongState (hc : ChanFound s c x) (hx : x.stopping = true ∨ x.enabled = false) :
    s.useChan c = wrongStateStatus x := by
  obtain ⟨hn, hf, hb⟩ := hc
  cases hs : x.stopping with
  | true => simp [State.useChan, wrongStateStatus, hn, hf, hs]
  | false =>
    have he : x.enabled = false := hx.resolve_left (by simp [hs])
    simp [State.useChan, wrongStateStatus, hn, hf, hb, hs, he]

/-! ### The commands, each with parameters in order -/

/-- MOVE on a channel it cannot use replies the status of using it. -/
theorem move_replies_useChan (h : s.starts 0x0201 .inline att ring rc c s1) (z1 : c.z 18 6 = true) (z2 : c.z 36 28 = true)
    (lo : 1 ≤ c.f 32 4) (hi : c.f 32 4 ≤ 65536) (hu : s1.useChan c = st) (hok : st ≠ stOK) (hw : st ≠ stWait) :
    Replies (exec (.moveCmd att ring) s) s1 rc st 0 0 0 := by
  refine startCmd_replies_st h hw ?_
  dsimp only
  rw [if_neg (by simp [z1, z2]), if_neg (by simp; omega), if_pos (hu ▸ hok), hu]

/-- FILL on a channel it cannot use replies the status of using it. -/
theorem fill_replies_useChan (h : s.starts 0x0202 .inline att ring rc c s1) (z1 : c.z 19 5 = true) (z2 : c.z 48 16 = true)
    (width : c.f 18 1 ∈ [1, 2, 4, 8]) (lo : 1 ≤ c.f 32 8) (hi : c.f 32 8 ≤ 2 ^ 40) (hu : s1.useChan c = st) (hok : st ≠ stOK)
    (hw : st ≠ stWait) : Replies (exec (.fillCmd att ring) s) s1 rc st 0 0 0 := by
  refine startCmd_replies_st h hw ?_
  dsimp only
  have hwd : [1, 2, 4, 8].contains (c.f 18 1) = true := List.contains_iff_mem.mpr width
  rw [if_neg (by simp [z1, z2]), if_neg (by rw [hwd]; simp; omega), if_pos (hu ▸ hok), hu]

/-- COMPARE on a channel it cannot use replies the status of using it. -/
theorem compare_replies_useChan (h : s.starts 0x0203 .inline att ring rc c s1) (z1 : c.z 18 6 = true) (z2 : c.z 48 16 = true)
    (lo : 1 ≤ c.f 40 8) (hi : c.f 40 8 ≤ 2 ^ 40) (hu : s1.useChan c = st) (hok : st ≠ stOK) (hw : st ≠ stWait) :
    Replies (exec (.compareCmd att ring) s) s1 rc st 0 0 0 := by
  refine startCmd_replies_st h hw ?_
  dsimp only
  rw [if_neg (by simp [z1, z2]), if_neg (by simp; omega), if_pos (hu ▸ hok), hu]

/-- CHANNEL_ENABLE on an enabled channel replies OK and changes nothing. -/
theorem channelEnable_enabled (h : s.starts 0x0205 .inline att ring rc c s1) (hc : ChanFound s1 c x)
    (hs : x.stopping = false) (he : x.enabled = true) (z1 : c.z 18 1 = true) (z2 : c.z 20 44 = true)
    (vec : (8 ≤ c.f 19 1 ∧ c.f 19 1 < 16) ∨ c.f 19 1 = 0xFF) :
    Replies (exec (.channelEnable att ring) s) s1 rc stOK 0 0 0 := by
  obtain ⟨hn, hf, hb⟩ := hc
  refine startCmd_replies_st h (by decide) ?_
  dsimp only
  rw [if_neg (by simp [z1, z2]), if_neg (by simp; omega), if_neg (by simp [hn]), hf]
  simp [hb, hs, he]

/-- CHANNEL_DISABLE on a disabled channel replies OK and changes nothing. -/
theorem channelDisable_disabled (h : s.starts 0x0206 .inline att ring rc c s1) (hc : ChanFound s1 c x)
    (hs : x.stopping = false) (he : x.enabled = false) (z1 : c.z 18 46 = true) :
    Replies (exec (.channelDisable att ring) s) s1 rc stOK 0 0 0 := by
  obtain ⟨hn, hf, -⟩ := hc
  refine startCmd_replies_st h (by decide) ?_
  simp [z1, hn, hf, hs, he]

/-- Settles O20: MOVE, FILL and COMPARE reply the status of using the channel, which R83 fixes; CHANNEL_ENABLE and
CHANNEL_DISABLE find the channel as asked. -/
theorem channelInTheWrongState : Obligations.ChannelInTheWrongState := by
  intro s att ring rc c s1 x hn hf hb
  have hc : ChanFound s1 c x := ⟨hn, hf, hb⟩
  refine ⟨?_, fun hs => ⟨?_, ?_⟩⟩
  · rintro st rfl hx
    have hu := useChan_wrongState hc hx
    have hok := wrongStateStatus_ne_ok x
    have hw := wrongStateStatus_ne_wait x
    refine ⟨?_, ?_, ?_⟩
    · intro h z1 z2 lo hi
      exact move_replies_useChan h z1 z2 lo hi hu hok hw
    · intro h z1 z2 width lo hi
      exact fill_replies_useChan h z1 z2 width lo hi hu hok hw
    · intro h z1 z2 lo hi
      exact compare_replies_useChan h z1 z2 lo hi hu hok hw
  · intro h he z1 z2 vec
    exact channelEnable_enabled h hc hs he z1 z2 vec
  · intro h he z1
    exact channelDisable_disabled h hc hs he z1

end Sys2Proof.Proofs
end

section
/-! PROOFS. Rounding of a quotient by a power of two (04 R129 to R131). -/

namespace Sys2Proof.Proofs
open Sys2Proof Sys2Proof.Machine

variable (r m sh : Nat)

/-! ### When each mode rounds up -/

/-- RNE rounds up above half a unit, and at half a unit from an odd quotient (04 R129). -/
theorem roundShift_rne_fst : (roundShift .rne r m sh).1 =
    if 2 ^ sh < 2 * (m % 2 ^ sh) ∨ (2 * (m % 2 ^ sh) = 2 ^ sh ∧ m / 2 ^ sh % 2 = 1) then m / 2 ^ sh + 1 else m / 2 ^ sh := by
  simp [roundShift]

/-- RTO rounds up with a remainder over an even quotient (04 R130). -/
theorem roundShift_rto_fst : (roundShift .rto r m sh).1 =
    if m % 2 ^ sh ≠ 0 ∧ m / 2 ^ sh % 2 = 0 then m / 2 ^ sh + 1 else m / 2 ^ sh := by
  simp [roundShift]

/-- SR rounds up when the remainder's first 16 bits and the random number carry (04 R131). -/
theorem roundShift_sr_fst : (roundShift .sr r m sh).1 =
    if 2 ^ 16 ≤ m % 2 ^ sh * 2 ^ 16 / 2 ^ sh + r then m / 2 ^ sh + 1 else m / 2 ^ sh := by
  simp [roundShift]

/-! ### RTO's two cases -/

variable {m sh}

theorem roundShift_rto_of_rem_eq_zero (h : m % 2 ^ sh = 0) : (roundShift .rto r m sh).1 = m / 2 ^ sh := by
  rw [roundShift_rto_fst, if_neg fun up => up.1 h]

/-- With a remainder RTO answers the odd one of the quotient and its successor. -/
theorem roundShift_rto_of_rem_ne_zero (h : m % 2 ^ sh ≠ 0) :
    (roundShift .rto r m sh).1 = if m / 2 ^ sh % 2 = 1 then m / 2 ^ sh else m / 2 ^ sh + 1 := by
  rw [roundShift_rto_fst]
  rcases Nat.mod_two_eq_zero_or_one (m / 2 ^ sh) with even | odd
  · rw [if_pos ⟨h, even⟩, if_neg (by omega)]
  · rw [if_neg (by omega), if_pos odd]

/-- Settles O6, from when each mode rounds up; RTO by whether there is a remainder. -/
theorem roundingModes : Obligations.RoundingModes := fun m sh r =>
  ⟨roundShift_rne_fst r m sh, roundShift_rto_of_rem_eq_zero r, roundShift_rto_of_rem_ne_zero r, roundShift_sr_fst r m sh⟩

end Sys2Proof.Proofs
end

section
/-! PROOFS. The two halves of an H32 position that packed S16 elements take (06 R199). -/

namespace Sys2Proof.Proofs
open Sys2Proof Sys2Proof.Machine

variable (e : Engine) (v r : Nat) {c : Nat}

/-- A packed element of an even column is the low half of its H32 word (06 R199). -/
theorem s_of_even (h : c % 2 = 0) : e.s v r c = (e.h v r (c / 2)).extractLsb' 0 16 := if_pos h

/-- A packed element of an odd column is the high half of its H32 word (06 R199). -/
theorem s_of_odd (h : c % 2 = 1) : e.s v r c = (e.h v r (c / 2)).extractLsb' 16 16 :=
  if_neg (Nat.mod_two_ne_zero.mpr h)

/-- Settles O12, by the parity of the column. -/
theorem packedElementPlaces : Obligations.PackedElementPlaces := fun e v r _ =>
  ⟨s_of_even e v r, s_of_odd e v r⟩

end Sys2Proof.Proofs
end

section
/-! PROOFS. Token counters: WAIT, SIGNAL and the additions they leave to later (07 R243, R244, R246). -/

namespace Sys2Proof.Proofs
open Sys2Proof Sys2Proof.Machine Sys2Proof.Laws

variable {s : State} {t p tk : Nat} {k : Kernel} {x : Path} {y : Tile}

/-! ### One token counter changed -/

/-- `s` with counter `tk` of tile `t` changed by `f`. -/
def onToken (s : State) (t tk : Nat) (f : Nat → Nat) : State :=
  s.onTile t fun z => { z with tok := sset 0 z.tok tk (f (z.tokAt tk)) }

/-- The new value stands in its counter, and every other counter keeps its value. -/
theorem tokAt_onToken (hy : s.tiles[t]? = some y) (f : Nat → Nat) :
    ∃ z, (onToken s t tk f).tiles[t]? = some z ∧ z.tokAt tk = f (y.tokAt tk) ∧ ∀ i, i ≠ tk → z.tokAt i = y.tokAt i := by
  refine ⟨_, by rw [onToken, onTile_tiles, modAt_getElem?_same, hy, Option.map_some], ?_, fun i hi => ?_⟩
  · exact (sget_sset 0 y.tok tk _ tk).trans (if_pos rfl)
  · exact (sget_sset 0 y.tok tk _ i).trans (if_neg hi)

/-- The issue paths do not depend on the counters. -/
theorem path?_onToken (f : Nat → Nat) : (onToken s t tk f).path? t p = s.path? t p := by
  cases h : s.tiles[t]? <;> simp [State.path?, onToken, h]

/-- A change of a path and one of a counter go in either order. -/
theorem onPath_onToken (f : Nat → Nat) (g : Path → Path) :
    (onToken s t tk f).onPath t p g = onToken (s.onPath t p g) t tk f := by
  simp [onToken, State.onPath, Tile.tokAt]

/-- An outcome in which a path and a counter of one tile have changed: the new path, the counter's new value, and
nothing else of the counters or outside the tile. -/
theorem onToken_onPath_spec {o : Host.Outcome State Fault Refusal} {f : Nat → Nat} {g : Path → Path}
    (hx : s.path? t p = some x) (hy : s.tiles[t]? = some y) (ho : o = .next (onToken (s.onPath t p g) t tk f)) :
    ∃ u z, o = .next u ∧ OnlyTile t s u ∧ u.tiles[t]? = some z ∧ z.tokAt tk = f (y.tokAt tk) ∧
      (∀ i, i ≠ tk → z.tokAt i = y.tokAt i) ∧ u.path? t p = some (g x) := by
  obtain ⟨z, hz, hv, hk⟩ := tokAt_onToken (tk := tk) (tiles_onPath s t p g y hy) f
  have hp : (onToken (s.onPath t p g) t tk f).path? t p = some (g x) := by
    rw [path?_onToken, path?_onPath_same, hx, Option.map_some]
  exact ⟨_, z, ho, ⟨_, onTile_onTile s t _ _⟩, hz, hv, hk, hp⟩

/-! ### WAIT (07 R244) -/

/-- A path that may dispatch is a path of the tile. -/
theorem path?_of_dispatchable (h : s.dispatchable t p = some (k, x)) : s.path? t p = some x := by
  unfold State.dispatchable at h
  split at h
  · rename_i x' k' hx hk
    split at h
    · obtain ⟨rfl, rfl⟩ := h
      exact hx
    · cases h
  · cases h

/-- A bundle in order whose WAIT has not subtracted is next on a path; the pair owns the counter and the queues have room. -/
structure WaitNext (s : State) (t p : Nat) (k : Kernel) (x : Path) (b : Bundle) (y : Tile) : Prop where
  disp : s.dispatchable t p = some (k, x)
  next : x.prog[x.pc]? = some b
  ok : x.bundleOk k b = true
  op : wf b.ctl 5 0 = 2
  waited : x.waited = false
  tile : s.tiles[t]? = some y
  owner : y.tokOwner.getD (wf b.ctl 13 6) 16 = p
  room : x.room b = true

variable {b : Bundle}

/-- WAIT subtracts and lets its bundle go, or changes nothing, as the counter has reached N or not. -/
theorem waitStep_next (h : WaitNext s t p k x b y) :
    waitStep t p s = if y.tokAt (wf b.ctl 13 6) < wf b.ctl 29 14 then s else
      (onToken s t (wf b.ctl 13 6) (· - wf b.ctl 29 14)).onPath t p fun z => { z with waited := true } := by
  obtain ⟨hd, hb, hok, hop, hw, hy, ho, hr⟩ := h
  simp only [waitStep, hd, hb, hy]
  rw [if_neg (by simp [hok, hop, hw]), if_neg (not_not.mpr ho)]
  simp [hr, onToken]

theorem exec_waitTok_reached (h : WaitNext s t p k x b y) (hn : wf b.ctl 29 14 ≤ y.tokAt (wf b.ctl 13 6)) :
    exec (.waitTok t p) s =
      .next (onToken (s.onPath t p fun z => { z with waited := true }) t (wf b.ctl 13 6) (· - wf b.ctl 29 14)) :=
  congrArg Host.Outcome.next ((waitStep_next h).trans ((if_neg hn.not_gt).trans (onPath_onToken _ _)))

theorem exec_waitTok_held (h : WaitNext s t p k x b y) (hn : y.tokAt (wf b.ctl 13 6) < wf b.ctl 29 14) :
    exec (.waitTok t p) s = .next s :=
  congrArg Host.Outcome.next ((waitStep_next h).trans (if_pos hn))

/-- No bundle is dispatched before its WAIT has subtracted. -/
theorem exec_bundleDispatch_held (h : WaitNext s t p k x b y) : exec (.bundleDispatch t p) s = .next s := by
  obtain ⟨hd, hb, hok, hop, hw, -, -, hr⟩ := h
  refine congrArg Host.Outcome.next ?_
  simp [bundleDispatchStep, hd, hb, hok, hop, hw, hr]

/-! ### An addition (07 R243, R246) -/

theorem tokenAdd_below {kid src pair bundle : Nat} (hy : s.tiles[t]? = some y) (hv : y.tokAt tk < 65535) :
    s.tokenAdd t tk kid src pair bundle = onToken s t tk (· + 1) := by
  simp [State.tokenAdd, onToken, hy, hv.ne]

variable {lt bundle : Nat} (g : Path → Path)

/-- A token for the pair's own tile is added at once. -/
theorem sendToken_own (hk : s.kernelOn t = some k) (hl : k.tiles.getD lt t = t) (hy : s.tiles[t]? = some y)
    (hv : y.tokAt tk < 65535) : (s.onPath t p g).sendToken t p lt tk bundle = onToken (s.onPath t p g) t tk (· + 1) := by
  rw [← tokenAdd_below (tiles_onPath s t p g y hy) hv]
  simp only [State.sendToken, kernelOn_onPath, hk]
  exact if_pos hl

/-- A token for another tile joins those that travel. -/
theorem sendToken_other_remoteSig (hk : s.kernelOn t = some k) (hl : k.tiles.getD lt t ≠ t) :
    ((s.onPath t p g).sendToken t p lt tk bundle).work.remoteSig = s.work.remoteSig ++
      [{ src := t, dst := k.tiles.getD lt t, token := tk, kid := k.kid, pair := p, bundle := bundle }] := by
  simp only [State.sendToken, kernelOn_onPath, hk]
  rw [if_neg hl, onPath_work]

/-! ### SIGNAL (07 R243) -/

/-- A control instruction that stands dispatched takes effect on the state that no longer holds it. -/
theorem ctlRow_held {op : Nat} {it : QItem} (h : s.ctlHeld t p op k x it) (f : Kernel → Path → QItem → State → State) :
    s.ctlRow t p op f = f k x it (s.onPath t p fun z => { z with ctl := none }) := by
  obtain ⟨hx, hk, hc, hi, ha, hop⟩ := h
  simp [State.ctlRow, hx, hk, hc, hi, ha, hop]

variable {it : QItem}

/-- A SIGNAL that covers no unit sends its token at dispatch. -/
theorem exec_signalTok_dispatch (h : s.ctlHeld t p 0x01 k x it) (hu : wf it.word 8 6 = 0) :
    exec (.signalTok t p) s = .next ((s.onPath t p fun z => { z with ctl := none }).sendToken t p (wf it.word 19 17)
      (wf it.word 16 9) it.bundle) :=
  congrArg Host.Outcome.next ((ctlRow_held h _).trans (if_pos hu))

/-- A SIGNAL that covers units joins those of its path that wait. -/
theorem exec_signalTok_units (h : s.ctlHeld t p 0x01 k x it) (hu : wf it.word 8 6 ≠ 0) :
    ∃ w, exec (.signalTok t p) s = .next (s.onPath t p fun z => { z with ctl := none, sigs := z.sigs ++ [w] }) :=
  ⟨_, congrArg Host.Outcome.next ((ctlRow_held h _).trans ((if_neg hu).trans (onPath_onPath s t p _ _)))⟩

/-! ### TOKEN_COUNT_ADD and REMOTE_SIGNAL (07 R243, R246) -/

/-- The first addition whose instructions have completed leaves those that wait and sends its token. -/
theorem exec_tokenCountAdd_ready {c : Core} {w : Signal} (hx : s.path? t p = some x) (hc : s.core? t p = some c)
    (hk : s.kernelOn t = some k) (hw : x.sigs.find? (signalReady x c k.kid) = some w) :
    exec (.tokenCountAdd t p) s = .next ((s.onPath t p fun z =>
      { z with sigs := dropFirst (signalReady x c k.kid) z.sigs }).sendToken t p w.ttile w.token w.bundle) := by
  refine congrArg Host.Outcome.next ?_
  simp only [tokenCountAddStep, hx, hc, hk, hw]

/-- The oldest token that travels is added to its counter. -/
theorem exec_remoteSignal_cons {r : RemoteSig} {q : List RemoteSig} (hr : s.work.remoteSig = r :: q)
    (hy : s.tiles[r.dst]? = some y) (hv : y.tokAt r.token < 65535) :
    exec .remoteSignal s = .next (onToken { s with work := { s.work with remoteSig := q } } r.dst r.token (· + 1)) := by
  refine congrArg Host.Outcome.next ?_
  simp only [remoteSignalStep, hr]
  exact tokenAdd_below hy hv

/-! ### The statement -/

/-- Settles O4. WAIT and the additions on the pair's own tile change one counter and the path (`onToken_onPath_spec`); a
token for another tile travels, and a SIGNAL that covers units waits. -/
theorem tokensWaitAndSignal : Obligations.TokensWaitAndSignal := by
  refine ⟨fun s t p k x b y hd hb hok hop hw hy ho hr => ?_, fun s t p k x it y c g => ⟨?_, ?_, ?_, ?_, ?_⟩⟩
  · have h : WaitNext s t p k x b y := ⟨hd, hb, hok, hop, hw, hy, ho, hr⟩
    exact ⟨fun hn => onToken_onPath_spec (path?_of_dispatchable hd) hy (exec_waitTok_reached h hn),
      fun hn => ⟨exec_waitTok_held h hn, exec_bundleDispatch_held h⟩⟩
  · intro h hu hl hy hv
    have ⟨hx, hk, _⟩ := h
    have he := exec_signalTok_dispatch h hu
    rw [sendToken_own _ hk hl hy hv] at he
    exact onToken_onPath_spec hx hy he
  · intro h hu hl
    have ⟨_, hk, _⟩ := h
    exact ⟨_, exec_signalTok_dispatch h hu, sendToken_other_remoteSig _ hk hl⟩
  · intro h hu
    have ⟨hx, _⟩ := h
    obtain ⟨w, hw⟩ := exec_signalTok_units h hu
    exact ⟨_, _, hw, ⟨_, rfl⟩, by rw [path?_onPath_same, hx, Option.map_some], List.length_append⟩
  · intro hx hc hk hg hl hy hv
    have he := exec_tokenCountAdd_ready hx hc hk hg
    rw [sendToken_own _ hk hl hy hv] at he
    obtain ⟨u, z, hu, only, hz, added, kept, -⟩ := onToken_onPath_spec hx hy he
    exact ⟨u, z, hu, only, hz, added, kept⟩
  · intro r q hr hy hv
    obtain ⟨z, hz⟩ := tokAt_onToken (s := { s with work := { s.work with remoteSig := q } }) hy (· + 1)
    refine ⟨_, z, exec_remoteSignal_cons hr hy hv, ?_, rfl, hz⟩
    constructor <;> simp [onToken]

end Sys2Proof.Proofs
end
